-- ==== Sys2Proof/Word.lean ====
section
/-! DEFINITION. The byte and word types of the manual, and the two small containers the part is built from:
one value per card slot and one value per drive port. -/

namespace Sys2Proof

/-- 8 bits (00_scope, Units of data). -/
abbrev Byte := BitVec 8

/-- 16 bits: serials, versions. -/
abbrev Half := BitVec 16

/-- 32 bits: CRCs, folds, timestamps, frame counters. -/
abbrev Word := BitVec 32

/-- The four card slots, 0 to 3. -/
inductive SlotId where
  | s0 | s1 | s2 | s3
  deriving DecidableEq, Repr

/-- The two drive ports. -/
inductive PortId where
  | dc0 | dc1
  deriving DecidableEq, Repr

/-- One value for each card slot. -/
structure Four (α : Type) where
  s0 : α
  s1 : α
  s2 : α
  s3 : α
  deriving DecidableEq, Repr

/-- One value for each drive port. -/
structure Two (α : Type) where
  dc0 : α
  dc1 : α
  deriving DecidableEq, Repr

namespace Four

/-- The value of one slot. -/
def get {α : Type} (f : Four α) : SlotId → α
  | .s0 => f.s0
  | .s1 => f.s1
  | .s2 => f.s2
  | .s3 => f.s3

/-- The four values with one of them replaced. -/
def set {α : Type} (f : Four α) (i : SlotId) (v : α) : Four α :=
  match i with
  | .s0 => { f with s0 := v }
  | .s1 => { f with s1 := v }
  | .s2 => { f with s2 := v }
  | .s3 => { f with s3 := v }

/-- The same value in every slot. -/
def all {α : Type} (v : α) : Four α := ⟨v, v, v, v⟩

@[simp] theorem get_set_same {α : Type} (f : Four α) (i : SlotId) (v : α) : (f.set i v).get i = v := by
  cases i <;> rfl

theorem get_set_ne {α : Type} (f : Four α) {i j : SlotId} (v : α) (h : j ≠ i) :
    (f.set i v).get j = f.get j := by
  cases i <;> cases j <;> first | rfl | exact absurd rfl h

@[simp] theorem get_all {α : Type} (v : α) (i : SlotId) : (Four.all v).get i = v := by
  cases i <;> rfl

end Four

namespace Two

/-- The value of one port. -/
def get {α : Type} (f : Two α) : PortId → α
  | .dc0 => f.dc0
  | .dc1 => f.dc1

/-- The two values with one of them replaced. -/
def set {α : Type} (f : Two α) (p : PortId) (v : α) : Two α :=
  match p with
  | .dc0 => { f with dc0 := v }
  | .dc1 => { f with dc1 := v }

@[simp] theorem get_set_same {α : Type} (f : Two α) (p : PortId) (v : α) : (f.set p v).get p = v := by
  cases p <;> rfl

theorem get_set_ne {α : Type} (f : Two α) {p q : PortId} (v : α) (h : q ≠ p) :
    (f.set p v).get q = f.get q := by
  cases p <;> cases q <;> first | rfl | exact absurd rfl h

end Two

/-- The slots in the order in which the manual takes them: slot 0 first. -/
def SlotId.inOrder : List SlotId := [.s0, .s1, .s2, .s3]

/-- The ports in order: DC0 first. -/
def PortId.inOrder : List PortId := [.dc0, .dc1]

end Sys2Proof
end

