-- ==== Sys2Proof/Config.lean ====
section
/-! DEFINITION. What is fixed for one part: the fields of the configuration image (chapter 11).
The manual leaves no value of a command's result undefined, so no free value stands here. -/

namespace Sys2Proof

/-- The configuration image, the only copy of the settings that the blocks read (R176 to R179).
Durations are in the unit of the layout table: ms, and s for the retry interval. -/
structure Image where
  station : Nat
  k : Nat
  useDc0 : Bool
  useDc1 : Bool
  fullVerify : Bool
  proxyEnable : Bool
  reportStation : Nat
  defaultLook : Nat
  presenceInterval : Nat
  presenceTimeout : Nat
  claimWindow : Nat
  segmentIdle : Nat
  reportTimeout : Nat
  retryInterval : Nat
  cadenceTolerance : Nat
  clipLevel : Nat
  exposurePerMille : Nat
  blackLevel : Nat
  lookClipPerMille : Nat
  deriving DecidableEq, Repr

end Sys2Proof
end

