-- ==== Sys2Proof/Syntax.lean ====
section
/-! DEFINITION. The commands of the part: one constructor for each row of spec/opcode_table.json.
The table gives its rows no operand bits; an operand is what the outside world supplies with the
event (log 4). A command about a message takes the head of the control receive queue (R10) and has
no operand. -/

namespace Sys2Proof

/-- The class a drive reports at attach (R82). -/
inductive DriveClass where
  | spinning | array | flash
  deriving DecidableEq, Repr

/-- What a drive reports at attach: class, capacity in blocks, used blocks (R82). -/
structure DriveReport where
  cls : DriveClass
  capacity : Nat
  used : Nat
  deriving DecidableEq, Repr

/-- The 54 events that change the part. -/
inductive Instr where
  /-- R180: power-up or reset line, with what the two ports and the four slots hold at that moment. -/
  | startReset (drives : Two (Option DriveReport)) (cards : Four (Option Nat))
  /-- R176: the 32 reads of the configuration memory, offset 0 first; none is a read not answered. -/
  | configurationLoadEnd (memory : List (Option Byte))
  /-- R12. -/
  | receiverLockLost
  /-- R13. -/
  | receiverLockGained
  /-- R3, R4: the bytes heard; own says that this station itself sent the message to completion. -/
  | messageReceived (own : Bool) (bytes : List Byte)
  /-- R5, R6: the lowest arbitration word any other station begins at this idle, if one does. -/
  | trunkIdleContend (others : Option Byte)
  /-- R5. -/
  | collision
  /-- R1. -/
  | messageSent
  /-- R7. -/
  | class3DeferralIdleExpiry
  /-- R14. -/
  | presenceIntervalExpiry
  /-- R17: the entry of this station number passes the presence timeout. -/
  | presenceTimeout (station : Nat)
  /-- R18. -/
  | listenTimeExpiry
  /-- R44. -/
  | lampBlinkToggle (slot : SlotId)
  /-- R21: the slot reports the card's size in blocks. -/
  | cardInsert (slot : SlotId) (size : Nat)
  /-- R22. -/
  | cardRemoval (slot : SlotId)
  /-- R23: one try ends with the block's bytes, or in failure. -/
  | blockReadTryEnd (slot : SlotId) (data : Option (List Byte))
  /-- R31. -/
  | blockDeliver (slot : SlotId)
  /-- R71: the first waiting BLOCK for this port. -/
  | hostedBlockHandover (port : PortId)
  /-- R73: the entry in this place of the hosted table. -/
  | segmentIdleTimerExpiry (place : Nat)
  /-- R68: the entry in this place of the hosted table. -/
  | reservationTimerExpiry (place : Nat)
  /-- R62. -/
  | claimWindowExpiry (slot : SlotId)
  /-- R53. -/
  | retryIntervalExpiry (slot : SlotId)
  /-- R107: the cell of this segment and peer station. -/
  | reportTimerExpiry (slot : SlotId) (segment : Nat) (station : Nat)
  /-- R82. -/
  | driveAttach (port : PortId) (report : DriveReport)
  /-- R83. -/
  | driveDetach (port : PortId)
  /-- R83. -/
  | driveError (port : PortId)
  /-- R91. -/
  | blockWriteDone (port : PortId)
  /-- R94: the blocks of the segment as the drive returns them, in position order. -/
  | digestReadbackDone (port : PortId) (blocks : List (List Byte))
  /-- R95: the block of the pair as the drive returns it. -/
  | fullComparePair (port : PortId) (drive : List Byte)
  /-- R98. -/
  | settleWaitDone (port : PortId)
  /-- R88. -/
  | proxyFrameService (port : PortId)
  /-- R142. -/
  | proxyOutboxEnter (slot : SlotId)
  /-- R131. -/
  | gradeTake
  /-- R132. -/
  | gradeComplete
  /-- R66. -/
  | cardAnnounce
  /-- R63. -/
  | claim
  /-- R69. -/
  | claimReply
  /-- R76. -/
  | runEnd
  /-- R77. -/
  | runCancel
  /-- R105. -/
  | segmentReport
  /-- R118. -/
  | lookPublish
  /-- R122. -/
  | lookAssign
  /-- R10. -/
  | replyKindRemoved
  /-- R168. -/
  | unknownKindRequest
  /-- R170. -/
  | cardQuery
  /-- R171. -/
  | clipQuery
  /-- R172. -/
  | stationQuery
  /-- R56. -/
  | hold
  /-- R57. -/
  | forceRelease
  /-- R55. -/
  | retryCopy
  /-- R138. -/
  | monitorSelect
  /-- R175. -/
  | clearOrphans
  /-- R59, R175. -/
  | clearAbandoned
  /-- R174, R181. -/
  | restart
  deriving DecidableEq, Repr

end Sys2Proof
end

