-- ==== Sys2Proof/Decode.lean ====
section
/-! DEFINITION. The command a word spells by the bits of spec/opcode_table.json. Every row of that table has
an empty list of fields and no fixed bits: the part is reached by events, not by coded words
(00_scope, How the part is reached). So no word spells a command. -/

namespace Sys2Proof

/-- The command that the table's bits spell in a word: none, because no row of the table has bits. -/
def decodeTableWord (_nbits _w : Nat) : Option Instr := none

end Sys2Proof
end

