-- ==== Sys2Proof/Machine/State.lean ====
section
/-! DEFINITION. The state of the part as plain data: every record, queue, table and flag that the manual
gives it (00_scope, Block overview), and the queue of commands waiting. -/

namespace Sys2Proof.Machine

/-! ## Names -/

/-- A card tag: the source station number with a 16-bit card serial (R40). -/
structure Tag where
  station : Nat
  serial : Half
  deriving DecidableEq, Repr

/-- Station modes (01, Station modes). -/
inductive Mode where
  | listen | run | silent | localOnly
  deriving DecidableEq, Repr

/-- The message kinds of the table in R2. -/
inductive Kind where
  | claimReply | runEnd | runCancel
  | cardAnnounce | claim | segmentReport | lookPublish | lookAssign
  | cardQuery | clipQuery | stationQuery | hold | forceRelease | retryCopy | monitorSelect
  | clearOrphans | clearAbandoned | restart
  | presence | faultNotice | faultSummary | cardStatus | clipStatus | stationStatus | refusal
  | block
  deriving DecidableEq, Repr

/-- One copy destination: a port of this station, or another station (R42). -/
inductive TargetKey where
  | localPort (port : PortId)
  | peer (station : Nat)
  deriving DecidableEq, Repr

/-! ## Fault records (chapter 9) -/

/-- The fault kinds of R159 (clip), R160 (card) and R161 (station). -/
inductive FaultKind where
  | droppedFrames | counterRepeat | timingSlip | exposureClip | blackFrame | frozenFrame | lookClip
  | lookMissing | clipReadError | frameUnreadable | proxyFull
  | noIndex | clipsTruncated | cardReadError | verifyMismatch | targetFailed | copyShort | cardRemovedEarly
  | syncLost | duplicateNumber | staleRunDropped | orphanedRun | configDefaulted
  deriving DecidableEq, Repr

/-- The cause of a failed attempt (R108). -/
inductive Cause where
  | crc | byte | fold | report | missing | timeout
  deriving DecidableEq, Repr

/-- The detail of VERIFY_MISMATCH (R108). A field the cause does not supply is absent. -/
structure VerifyDetail where
  tag : Tag
  segment : Nat
  attempt : Nat
  cause : Cause
  block : Option Nat
  offset : Option Nat
  source : Option Word
  drive : Option Word
  count : Nat
  deriving DecidableEq, Repr

/-- A fault record (R156). Its level is that of its kind. -/
structure FaultRecord where
  kind : FaultKind
  target : Option TargetKey
  first : Nat
  last : Nat
  runLength : Nat
  detail : Word
  verify : Option VerifyDetail
  deriving DecidableEq, Repr

/-- A fault list with its summary counts, in kind-code order, and its owner's publish-pending flag
(R157, R158, R164). -/
structure FaultLog where
  records : List FaultRecord
  counts : List Nat
  pending : Bool
  deriving DecidableEq, Repr

/-! ## Messages (chapter 1) -/

/-- A message in the control receive queue: its kind code, stations and body (R10). -/
structure Message where
  code : Byte
  source : Nat
  target : Nat
  body : List Byte
  deriving DecidableEq, Repr

/-- A message produced here, waiting in the control send queue or the publication queue: what its
producer supplies (R1). -/
structure OutMessage where
  kind : Kind
  target : Nat
  body : List Byte
  deriving DecidableEq, Repr

/-- A BLOCK in a bulk staging buffer, full (R9). The owner is the card slot that claimed the buffer;
it is absent once that card has been removed while the BLOCK was being sent (R22). -/
structure StagedBlock where
  owner : Option SlotId
  target : Nat
  tag : Tag
  index : Nat
  attempt : Nat
  lastOfSegment : Bool
  bad : Bool
  crc : Word
  data : List Byte
  deriving DecidableEq, Repr

/-- A BLOCK in a bulk receive buffer (R11). buffer is the number of the buffer, 0 to 3. -/
structure BulkBlock where
  buffer : Nat
  tag : Tag
  index : Nat
  attempt : Nat
  lastOfSegment : Bool
  bad : Bool
  crc : Word
  data : List Byte
  deriving DecidableEq, Repr

/-- The fields of a PRESENCE body (R15). -/
structure PresenceFields where
  mode : Nat
  freeHosted : Nat
  cards : Nat
  dc0Free : Word
  dc1Free : Word
  deriving DecidableEq, Repr

/-- An entry of the presence table (R16). -/
structure PresenceEntry where
  station : Nat
  age : Nat
  fields : Option PresenceFields
  deriving DecidableEq, Repr

/-- Where the message being sent stands (R6): the control send queue under its class, the head of the
publication queue, or the oldest staging buffer. -/
inductive TxSource where
  | control (cls : Nat)
  | publication
  | staging
  deriving DecidableEq, Repr

/-- The message being sent after arbitration was won, with the bytes it puts on the trunk (R1, R5). -/
structure Transmission where
  source : TxSource
  bytes : List Byte
  deriving DecidableEq, Repr

/-- The Trunk Interface (chapter 1). -/
structure Trunk where
  sendQ : List OutMessage
  staging : List StagedBlock
  recvQ : List Message
  bulk : List BulkBlock
  locked : Bool
  syncLost : Bool
  presence : List PresenceEntry
  mode : Mode
  /-- The LISTEN time, with the length in ms it was started with (R18). -/
  listenTimer : Option Nat
  /-- The presence interval timer, with the length in ms it was started with (R14). -/
  presenceTimer : Option Nat
  /-- The class 3 deferral is in force (R7). -/
  deferral : Bool
  tx : Option Transmission
  deriving DecidableEq, Repr

/-- What waits for a place in a work queue or for a staging buffer (R9, R31, R89): the block in hand of a
card slot, a bulk receive buffer by its number, the head of a proxy outbox. -/
inductive Requester where
  | slot (slot : SlotId)
  | bulk (buffer : Nat)
  | outbox (slot : SlotId)
  deriving DecidableEq, Repr

/-! ## Slot Reader (chapter 2) -/

/-- Slot states. -/
inductive SlotState where
  | empty | mounting | ready | reading
  deriving DecidableEq, Repr

/-- An item of a read queue (R29). A resend names its target with the round that formed it; a compare
names the port, the reserved run and the attempt of its segment job. -/
inductive ReadItem where
  | firstPass
  | roundPass (round : Nat)
  | resend (segment : Nat) (target : TargetKey) (round : Nat) (attempt : Nat)
  | compare (segment : Nat) (port : PortId) (run : Nat) (attempt : Nat)
  deriving DecidableEq, Repr

/-- A block that has been read and waits to be delivered (R31). -/
structure Hand where
  index : Nat
  data : List Byte
  crc : Word
  bad : Bool
  deriving DecidableEq, Repr

/-- The progress of the running item: the block being read or in hand, the running fold of its segment
(R101), and whether a local resend has brought its settle wait (R98). -/
structure ReadProgress where
  next : Nat
  hand : Option Hand
  fold : Word
  settleBrought : Bool
  deriving DecidableEq, Repr

/-- An open frame unit (R36): clip, first block, length in blocks, plane offset, and whether a frame-queue
entry is being filled from it (R38). -/
structure OpenUnit where
  clip : Nat
  start : Nat
  length : Nat
  planeOffset : Nat
  filling : Bool
  deriving DecidableEq, Repr

/-- The frame parser of a slot (R36 to R39): the open unit, and the clips it has entered. -/
structure Parser where
  unit : Option OpenUnit
  entered : List Nat
  deriving DecidableEq, Repr

/-- The path of one card slot through the Slot Reader. While READING, the head of the queue is the running
item; waiting holds the requests waiting at their requesters (R29). -/
structure SlotReader where
  state : SlotState
  size : Nat
  bad : List Nat
  queue : List ReadItem
  waiting : List ReadItem
  progress : Option ReadProgress
  tries : Nat
  parser : Parser
  deriving DecidableEq, Repr

/-! ## Card records (chapters 3 and 6) -/

/-- The states of a card record but EMPTY: an EMPTY record is an absent one. -/
inductive CardState where
  | indexing | claiming | copying | settling | short | held | releasable | overridden | abandoned
  deriving DecidableEq, Repr

/-- Cell states (R103). -/
inductive CellState where
  | notSent | sent | verified | mismatch | resendListed | failed
  deriving DecidableEq, Repr

/-- A cell of the segment table, with its report timer's length in ms while it runs (R106). -/
structure Cell where
  state : CellState
  attempt : Nat
  timer : Option Nat
  deriving DecidableEq, Repr

/-- Target states (R43). -/
inductive TargetState where
  | pending | writing | verified | failed | dropped
  deriving DecidableEq, Repr

/-- A target record with its column of the segment table (R42, R102). run is the reserved run of a LOCAL
target, whose reservation and written-block map the channel keeps (R86). -/
structure Target where
  key : TargetKey
  state : TargetState
  roundFormed : Nat
  cells : List Cell
  run : Option Nat
  deriving DecidableEq, Repr

/-- A row of the segment table (R102). -/
structure Row where
  blocks : Nat
  fold : Option Word
  deriving DecidableEq, Repr

/-- A resend list entry (R111). -/
structure ResendEntry where
  segment : Nat
  target : TargetKey
  attempt : Nat
  deriving DecidableEq, Repr

/-- The claim window of a record (R62): none, waiting for the announce to be sent, or open with the copies
wanted, the ranked claims and the length of its timer in ms. -/
inductive ClaimWindow where
  | none
  | unsent (wanted : Nat)
  | opened (wanted : Nat) (ranked : List Nat) (length : Nat)
  deriving DecidableEq, Repr

/-- A latched look: slot, version, name (R126). -/
structure Latched where
  slot : Nat
  version : Half
  name : List Byte
  deriving DecidableEq, Repr

/-- Cadence state of a clip (R146). -/
structure Cadence where
  c0 : Word
  t0 : Word
  p : Word
  deriving DecidableEq, Repr

/-- A clip record (R27, chapter 9). Its clip number is its place in the clip table. -/
structure Clip where
  first : Nat
  count : Nat
  frames : Nat
  rateM : Nat
  rateN : Nat
  timecode : List Byte
  flags : Half
  assigned : Nat
  latched : Option Latched
  regradeDue : Bool
  seen : Nat
  checked : Nat
  skipped : Nat
  cadence : Option Cadence
  prevDigest : Option (Word × Nat)
  pendingPos : List Nat
  clipEnd : Bool
  complete : Bool
  log : FaultLog
  deriving DecidableEq, Repr

/-- A card record (R41). -/
structure CardRecord where
  tag : Tag
  roll : List Byte
  state : CardState
  k : Nat
  round : Nat
  blockCount : Nat
  segmentCount : Nat
  sourceErrors : Nat
  hold : Bool
  waitingForRun : Bool
  targets : List Target
  excluded : List Nat
  rows : List Row
  resend : List ResendEntry
  clips : List Clip
  log : FaultLog
  noIndex : Bool
  clipsTruncated : Bool
  /-- The retry interval timer, with the length in s it was started with (R53). -/
  retryTimer : Option Nat
  window : ClaimWindow
  /-- The ports whose answers the forming of local targets waits for (R45, R182). -/
  forming : List PortId
  /-- The lit phase of a blinking lamp (R44). -/
  lampLit : Bool
  deriving DecidableEq, Repr

/-! ## Hosted copies (chapter 4) -/

/-- Hosted entry states (R70). -/
inductive HostedState where
  | reserved | receiving | complete | cancelled | orphaned
  deriving DecidableEq, Repr

/-- The open segment of a hosted entry (R70): beyond is the mark of R71; timer is the segment idle timer's
length in ms. -/
structure OpenSegment where
  segment : Nat
  attempt : Nat
  present : List Nat
  lastSeen : Bool
  beyond : Bool
  timer : Nat
  deriving DecidableEq, Repr

/-- The segment most recently closed, with its attempt and the number of blocks it held. -/
structure ClosedSegment where
  segment : Nat
  attempt : Nat
  present : Nat
  deriving DecidableEq, Repr

/-- Outcomes of a SEGMENT_REPORT. -/
inductive ReportOutcome where
  | written | missingBlocks | writeFailed | destFull
  deriving DecidableEq, Repr

/-- The outcome and the digest fields of a formed report (R74). first is FFFFh when no block mismatched. -/
structure FormedReport where
  outcome : ReportOutcome
  first : Nat
  fold : Word
  deriving DecidableEq, Repr

/-- The report of a closed segment that is still to be queued (R74). formed is absent while the segment awaits its
read-back. -/
structure OwedReport where
  segment : Nat
  attempt : Nat
  present : Nat
  formed : Option FormedReport
  deriving DecidableEq, Repr

/-- A hosted entry (R70). owed lists the reports still to be queued, in the order in which their segments closed
(R74). Its reservation and written-block map are those of its reserved run at the port. -/
structure HostedEntry where
  tag : Tag
  round : Nat
  port : PortId
  blockCount : Nat
  segmentCount : Nat
  state : HostedState
  run : Nat
  reservationTimer : Option Nat
  highest : Option Nat
  opened : Option OpenSegment
  lastClosed : Option ClosedSegment
  lastMismatch : Nat
  owed : List OwedReport
  deriving DecidableEq, Repr

/-- The fields of an announce that a claim uses (R66, R67). -/
structure Announce where
  tag : Tag
  round : Nat
  blockCount : Nat
  segmentCount : Nat
  deriving DecidableEq, Repr

/-! ## Destination Channels (chapter 5) -/

/-- Destination record states. -/
inductive DriveState where
  | absent | ready | failed
  deriving DecidableEq, Repr

/-- Who holds a reserved run: the LOCAL target of a card, or a hosted entry. -/
inductive RunOwner where
  | card (slot : SlotId) (tag : Tag)
  | hosted (tag : Tag)
  deriving DecidableEq, Repr

/-- A reserved run (R85, R86): its reservation and its written-block map. ended marks a run whose holder has
left while accepted writes are still to be counted (R92). -/
structure Run where
  id : Nat
  owner : RunOwner
  reservation : Nat
  written : List Nat
  ended : Bool
  deriving DecidableEq, Repr

/-- A proxy frame (R140, R141). In an outbox its plane is dropped and not yet fixed. -/
structure ProxyFrame where
  tag : Tag
  clip : Nat
  look : Option Latched
  counter : Word
  timestamp : Word
  held : Bool
  black : Bool
  repeats : Nat
  plane : List Byte
  deriving DecidableEq, Repr

/-- A work queue item (R89). -/
inductive WorkItem where
  | write (run : Nat) (block : Nat) (attempt : Nat) (crc : Word) (data : List Byte)
  | readback (run : Nat) (segment : Nat) (attempt : Nat) (full : Bool)
  | settle (run : Nat) (segment : Nat) (attempt : Nat)
  | proxy (frame : ProxyFrame)
  deriving DecidableEq, Repr

/-- A segment job with the source CRCs kept by position (R93). -/
structure SegmentJob where
  run : Nat
  segment : Nat
  attempt : Nat
  expected : Nat
  kept : List (Nat × Word)
  deriving DecidableEq, Repr

/-- The full-mode compare in service (R95): next position, fold of the read-back CRCs, differing bytes, first
position with a difference. -/
structure ComparePass where
  position : Nat
  fold : Word
  diffs : Nat
  first : Option Nat
  deriving DecidableEq, Repr

/-- A mismatch capture (R97). offset is absent in digest mode. -/
structure Capture where
  tag : Tag
  segment : Nat
  block : Nat
  offset : Option Nat
  source : Word
  drive : Word
  count : Nat
  deriving DecidableEq, Repr

/-- A reservation request that waits for a channel finishing a warm restart (R182). -/
inductive ReservationRequest where
  | card (slot : SlotId)
  | hosted (announce : Announce)
  deriving DecidableEq, Repr

/-- A block the channel has written to the drive, in the fixed place of its run and index (R91). -/
structure MediaBlock where
  run : Nat
  block : Nat
  data : List Byte
  deriving DecidableEq, Repr

/-- The figures of a destination record (05). -/
structure Figures where
  capacity : Nat
  used : Nat
  reserved : Nat
  deriving DecidableEq, Repr

/-- A Destination Channel: the destination record, the item in service and the work queue behind it, the
read-backs waiting at the channel, the reserved runs, segment jobs and capture (chapter 5). media and
proxies are what it has written to the drive since the attach (log 20). -/
structure Channel where
  state : DriveState
  cls : Option DriveClass
  fig : Figures
  serving : Option WorkItem
  queue : List WorkItem
  readbacks : List WorkItem
  runs : List Run
  jobs : List SegmentJob
  compare : Option ComparePass
  capture : Option Capture
  finishing : Bool
  requests : List ReservationRequest
  media : List MediaBlock
  proxies : List (List Byte)
  deriving DecidableEq, Repr

/-! ## Looks (chapter 7) -/

/-- The values of a look that grading uses: slope, offset, tone table, saturation. -/
structure LookValues where
  slopeR : Nat
  slopeG : Nat
  slopeB : Nat
  offsetR : Int
  offsetG : Int
  offsetB : Int
  tone : List Nat
  saturation : Nat
  deriving DecidableEq, Repr

/-- A LOADED look record. -/
structure LookRecord where
  version : Half
  name : List Byte
  values : LookValues
  deriving DecidableEq, Repr

/-- A working look: its values and the clip whose latch or reload last loaded it (R125). -/
structure WorkingLook where
  values : LookValues
  owner : Option (Tag × Nat)
  deriving DecidableEq, Repr

/-! ## Grade Pipeline (chapter 8) -/

/-- The state of a frame-queue entry (R130). A frame being graded carries the values copied at its take. -/
inductive FrameState where
  | filling
  | complete
  | grading (look : LookValues)
  deriving DecidableEq, Repr

/-- A frame-queue entry (R130). -/
structure FrameEntry where
  slot : SlotId
  tag : Tag
  clip : Nat
  counter : Word
  timestamp : Word
  plane : List Byte
  state : FrameState
  deriving DecidableEq, Repr

/-- A proxy hold frame (R140, R141). -/
structure HoldFrame where
  tag : Tag
  clip : Nat
  plane : List Byte
  deriving DecidableEq, Repr

/-- A proxy outbox, with the port its head waits for (R142, R143). -/
structure Outbox where
  frames : List ProxyFrame
  port : Option PortId
  deriving DecidableEq, Repr

/-- The Grade Pipeline. -/
structure GradePipeline where
  queue : List FrameEntry
  monitored : SlotId
  shown : List Byte
  hold : Four (Option HoldFrame)
  outbox : Four Outbox
  deriving DecidableEq, Repr

/-! ## The whole part -/

/-- The OD-740. image is absent until the configuration load ends (R180). A card record is absent when
EMPTY, a look slot when EMPTY, a hosted place when free. -/
structure State where
  pending : List Instr
  image : Option Image
  seated : Four (Option Nat)
  trunk : Trunk
  line : List Requester
  slots : Four SlotReader
  cards : Four (Option CardRecord)
  serial : Half
  hosted : List (Option HostedEntry)
  nextRun : Nat
  ports : Two Channel
  looks : List (Option LookRecord)
  working : Four WorkingLook
  grade : GradePipeline
  stationLog : FaultLog
  pubQ : List OutMessage
  deriving DecidableEq, Repr

/-- The reasons for which the part could stop with a fault. No command of the manual stops the part: its
faults are records (R156). -/
inductive Fault where
  /-- Raised by no meaning; it stands because the interface asks for a type of faults. Safe: a model that
  never stops allows no less than the part does. -/
  | noCommandFaults
  deriving DecidableEq, Repr

/-- The reasons for which a command is refused. -/
inductive Refusal where
  /-- A command whose meaning is not written. Raised by no arm of exec. Safe: the model stops. -/
  | notModelled (mnemonic : String)
  deriving DecidableEq, Repr

/-! ## Start values -/

/-- An empty fault list with its counts at 0 (R41, R162). kinds is the number of kinds of the level. -/
def FaultLog.empty (kinds : Nat) : FaultLog := ⟨[], List.replicate kinds 0, false⟩

/-- An empty slot (02, Slot Reader state after reset). -/
def SlotReader.start : SlotReader :=
  { state := .empty, size := 0, bad := [], queue := [], waiting := [], progress := none, tries := 0,
    parser := ⟨none, []⟩ }

/-- A channel whose port has no drive (R84). -/
def Channel.start : Channel :=
  { state := .absent, cls := none, fig := ⟨0, 0, 0⟩, serving := none, queue := [], readbacks := [], runs := [],
    jobs := [], compare := none, capture := none, finishing := false, requests := [], media := [],
    proxies := [] }

/-- The name NEUTRAL followed by one 20h byte (R117). -/
def neutralName : List Byte := [0x4E, 0x45, 0x55, 0x54, 0x52, 0x41, 0x4C, 0x20]

/-- The tone table of the neutral look: T[i] = min(128 × i, 4,095) (R117). -/
def neutralTone : List Nat := (List.range 33).map fun i => min (128 * i) 4095

/-- The values of the neutral look (R117). -/
def LookValues.neutral : LookValues :=
  { slopeR := 1024, slopeG := 1024, slopeB := 1024, offsetR := 0, offsetG := 0, offsetB := 0,
    tone := neutralTone, saturation := 1024 }

/-- The record of look slot 0 (R117). -/
def LookRecord.neutral : LookRecord := ⟨0, neutralName, .neutral⟩

/-- The look table after start reset: slot 0 neutral, slots 1 to 15 EMPTY (R116, R117). -/
def startLooks : List (Option LookRecord) := some .neutral :: List.replicate 15 none

/-- A working look after reset: neutral values, no owner (R125). -/
def WorkingLook.start : WorkingLook := ⟨.neutral, none⟩

/-- The Grade Pipeline after reset (R144); the shown frame is black, every code 0. -/
def GradePipeline.start : GradePipeline :=
  { queue := [], monitored := .s0, shown := [], hold := .all none, outbox := .all ⟨[], none⟩ }

/-- The Trunk Interface after start reset (01, Trunk Interface state after reset). -/
def Trunk.start : Trunk :=
  { sendQ := [], staging := [], recvQ := [], bulk := [], locked := false, syncLost := false, presence := [],
    mode := .listen, listenTimer := none, presenceTimer := none, deferral := false, tx := none }

/-- The part right after start reset, with the configuration load running, no card seated and no drive
attached (R180; the last two are log 6). -/
def State.reset : State :=
  { pending := [], image := none, seated := .all none, trunk := .start, line := [],
    slots := .all .start, cards := .all none, serial := 0, hosted := List.replicate 8 none, nextRun := 0,
    ports := ⟨.start, .start⟩, looks := startLooks, working := .all .start, grade := .start,
    stationLog := .empty 5, pubQ := [] }

end Sys2Proof.Machine
end

