-- ==== Sys2Proof/Machine/CheckUnit.lean ====
section
/-! DEFINITION. Byte order, byte strings, and the arithmetic of the Check Unit: the one CRC, the segment fold and
the byte compare (R96, R99 to R101). The Check Unit keeps no state between computations (R96), so these are
plain functions. -/

namespace Sys2Proof.Machine

/-! ## Byte order (00_scope, Byte order) -/

/-- The low 8 bits of a number. -/
def byteOf (n : Nat) : Byte := BitVec.ofNat 8 n

/-- A two-byte field, least significant byte first. -/
def le16 (n : Nat) : List Byte := [byteOf n, byteOf (n / 256)]

/-- A four-byte field, least significant byte first. -/
def le32 (n : Nat) : List Byte := [byteOf n, byteOf (n / 256), byteOf (n / 65536), byteOf (n / 16777216)]

/-- A 32-bit value, least significant byte first. -/
def leWord (w : Word) : List Byte := le32 w.toNat

/-- The byte at an offset, 0 beyond the end. -/
def byteAt (bs : List Byte) (i : Nat) : Nat := (bs.getD i 0).toNat

/-- The two-byte field at an offset. -/
def halfAt (bs : List Byte) (i : Nat) : Nat := byteAt bs i + 256 * byteAt bs (i + 1)

/-- The four-byte field at an offset. -/
def wordAt (bs : List Byte) (i : Nat) : Nat := halfAt bs i + 65536 * halfAt bs (i + 2)

/-- Exactly n bytes: the string cut or continued with zeros (log 5). -/
def padTo (n : Nat) (bs : List Byte) : List Byte := (bs ++ List.replicate (n - bs.length) 0).take n

/-- n bytes from an offset. -/
def slice (bs : List Byte) (at_ n : Nat) : List Byte := (bs.drop at_).take n

/-- The 65,536 bytes of a block. -/
def blockBytes (data : List Byte) : List Byte := padTo 65536 data

/-- The 777,600 bytes of a review plane. -/
def planeBytes (plane : List Byte) : List Byte := padTo 777600 plane

/-! ## The CRC (R99) -/

/-- One bit of the reflected register with generator 82F63B78h. -/
def crcBit (r : Word) : Word :=
  if r.getLsbD 0 then (r >>> 1) ^^^ 0x82F63B78#32 else r >>> 1

/-- One byte, least significant bit first. -/
def crcByte (r : Word) (b : Byte) : Word :=
  crcBit (crcBit (crcBit (crcBit (crcBit (crcBit (crcBit (crcBit (r ^^^ b.setWidth 32))))))))

/-- The CRC of a byte string: initial register FFFFFFFFh, complemented at the end. -/
def crc (bs : List Byte) : Word := ~~~ (bs.foldl crcByte 0xFFFFFFFF#32)

/-- The block CRC: the 65,536 bytes as delivered (R100). -/
def blockCrc (data : List Byte) : Word := crc (blockBytes data)

/-- The plane digest: the 777,600 bytes of the plane, high bits of each sample included (R100). -/
def planeDigest (plane : List Byte) : Word := crc (planeBytes plane)

/-! ## The segment fold (R101) -/

/-- One CRC entered into a fold at position j: rotated left by j mod 32 and combined by exclusive OR. -/
def foldIn (acc : Word) (j : Nat) (c : Word) : Word := acc ^^^ c.rotateLeft (j % 32)

/-- The fold of CRCs whose first stands at position j. -/
def foldFrom (acc : Word) (j : Nat) : List Word → Word
  | [] => acc
  | c :: cs => foldFrom (foldIn acc j c) (j + 1) cs

/-- The fold of the CRCs of one segment, in position order. -/
def segmentFold (cs : List Word) : Word := foldFrom 0 0 cs

/-! ## The byte compare (R96) -/

/-- Two strings side by side from position i: how many positions differ, and the first that does with its two
bytes. -/
def byteCompareFrom (i : Nat) : List Byte → List Byte → Nat × Option (Nat × Byte × Byte)
  | a :: as, b :: bs =>
    let rest := byteCompareFrom (i + 1) as bs
    if a = b then rest else (rest.1 + 1, some (i, a, b))
  | _, _ => (0, none)

/-- A source block set against a drive block. -/
def byteCompare (source drive : List Byte) : Nat × Option (Nat × Byte × Byte) :=
  byteCompareFrom 0 (blockBytes source) (blockBytes drive)

/-! ## Counts -/

/-- A saturating count (00_scope, Arithmetic). -/
def satAdd (limit n k : Nat) : Nat := min limit (n + k)

/-- A value clamped to a range (00_scope, Arithmetic). -/
def clampNat (lo hi n : Nat) : Nat := max lo (min hi n)

/-- A signed value clamped to a range. -/
def clampInt (lo hi n : Int) : Int := max lo (min hi n)

end Sys2Proof.Machine
end

