-- ==== Sys2Proof/Machine/Configuration.lean ====
section
/-! DEFINITION. The Configuration Loader's reading of the memory: validation, defaults and clamps (R176 to R178). -/

namespace Sys2Proof.Machine

/-- The default image (11, last column of the layout table). -/
def defaultImage : Image :=
  { station := 0, k := 2, useDc0 := true, useDc1 := true, fullVerify := false, proxyEnable := false,
    reportStation := 0, defaultLook := 0, presenceInterval := 250, presenceTimeout := 1000,
    claimWindow := 300, segmentIdle := 500, reportTimeout := 5000, retryInterval := 10,
    cadenceTolerance := 8, clipLevel := 4080, exposurePerMille := 20, blackLevel := 64,
    lookClipPerMille := 5 }

/-- The 32 bytes, if every read was answered (R176). -/
def answeredBytes (memory : List (Option Byte)) : Option (List Byte) :=
  (List.range 32).mapM fun i => memory.getD i none

/-- The image of a valid memory, each field clamped on its own, then the presence timeout raised to twice the
interval (R178). -/
def clampedImage (b : List Byte) : Image :=
  let interval := clampNat 50 1000 (halfAt b 6)
  let flags := b.getD 3 0
  { station := if byteAt b 1 ≤ 31 then byteAt b 1 else 0
    k := clampNat 1 4 (byteAt b 2)
    useDc0 := flags.getLsbD 0
    useDc1 := flags.getLsbD 1
    fullVerify := flags.getLsbD 2
    proxyEnable := flags.getLsbD 3
    reportStation := min 31 (byteAt b 4)
    defaultLook := min 15 (byteAt b 5)
    presenceInterval := interval
    presenceTimeout := max (2 * interval) (clampNat 200 5000 (halfAt b 8))
    claimWindow := min 5000 (halfAt b 10)
    segmentIdle := clampNat 100 5000 (halfAt b 12)
    reportTimeout := clampNat 1000 30000 (halfAt b 14)
    retryInterval := clampNat 1 120 (byteAt b 16)
    cadenceTolerance := byteAt b 17
    clipLevel := min 4095 (halfAt b 18)
    exposurePerMille := byteAt b 20
    blackLevel := min 4095 (halfAt b 21)
    lookClipPerMille := byteAt b 23 }

/-- The image built from the reads, and the detail of CONFIG_DEFAULTED when the default image is taken: 3 memory
absent, 1 bad signature, 2 bad checksum, in that order (R177). -/
def loadImage (memory : List (Option Byte)) : Image × Option Nat :=
  match answeredBytes memory with
  | none => (defaultImage, some 3)
  | some b =>
    if b.getD 0 0 ≠ 0xD7 then (defaultImage, some 1)
    else if (b.map BitVec.toNat).sum % 256 ≠ 0 then (defaultImage, some 2)
    else (clampedImage b, none)

end Sys2Proof.Machine
end

