-- ==== Sys2Proof/Machine/Operands.lean ====
section
/-! DEFINITION. The message kinds and the operand forms that messages carry: kind codes and classes (R2), the
envelope (R1, R3), the body lengths (R4), and the bodies that commands read (R60, R118, R122, and the tables
of chapters 4, 7 and 10). -/

namespace Sys2Proof.Machine

/-! ## Kinds (R2) -/

/-- The code of a kind. -/
def Kind.code : Kind → Byte
  | .claimReply => 0x10 | .runEnd => 0x11 | .runCancel => 0x12
  | .cardAnnounce => 0x20 | .claim => 0x21 | .segmentReport => 0x22
  | .lookPublish => 0x28 | .lookAssign => 0x29
  | .cardQuery => 0x30 | .clipQuery => 0x31 | .stationQuery => 0x32 | .hold => 0x33
  | .forceRelease => 0x34 | .retryCopy => 0x35 | .monitorSelect => 0x36 | .clearOrphans => 0x37
  | .clearAbandoned => 0x38 | .restart => 0x39
  | .presence => 0x40 | .faultNotice => 0x41 | .faultSummary => 0x42
  | .cardStatus => 0x48 | .clipStatus => 0x49 | .stationStatus => 0x4A | .refusal => 0x4B
  | .block => 0x60

/-- The arbitration class of a kind. -/
def Kind.cls : Kind → Nat
  | .claimReply | .runEnd | .runCancel => 0
  | .cardAnnounce | .claim | .segmentReport | .lookPublish | .lookAssign
  | .cardQuery | .clipQuery | .stationQuery | .hold | .forceRelease | .retryCopy | .monitorSelect
  | .clearOrphans | .clearAbandoned | .restart => 1
  | .presence | .faultNotice | .faultSummary | .cardStatus | .clipStatus | .stationStatus | .refusal => 2
  | .block => 3

/-- Every kind of the table. -/
def Kind.all : List Kind :=
  [.claimReply, .runEnd, .runCancel, .cardAnnounce, .claim, .segmentReport, .lookPublish, .lookAssign,
   .cardQuery, .clipQuery, .stationQuery, .hold, .forceRelease, .retryCopy, .monitorSelect, .clearOrphans,
   .clearAbandoned, .restart, .presence, .faultNotice, .faultSummary, .cardStatus, .clipStatus,
   .stationStatus, .refusal, .block]

/-- The kind of a code, if the table of R2 has it. -/
def Kind.ofCode (c : Byte) : Option Kind := Kind.all.find? fun k => k.code == c

/-- The console requests are codes 30h to 39h. -/
def Kind.isRequest (k : Kind) : Bool := 0x30 ≤ k.code.toNat && k.code.toNat ≤ 0x39

/-- The words of a body that a console request has (10, Console requests). -/
def Kind.requestWords : Kind → Nat
  | .cardQuery | .clipQuery | .hold => 2
  | .stationQuery | .forceRelease | .retryCopy | .monitorSelect | .clearAbandoned => 1
  | _ => 0

/-- Whether a kind allows a body of so many words (R4; each length is given with its body). -/
def Kind.lengthAllowed (k : Kind) (words : Nat) : Bool :=
  match k with
  | .claimReply | .claim | .presence | .lookAssign => words == 3
  | .runEnd | .segmentReport => words == 4
  | .runCancel | .refusal => words == 2
  | .cardAnnounce => words == 8
  | .lookPublish => words == 24
  | .faultNotice => words == 12
  | .faultSummary => words == 89
  | .cardStatus => words == 105
  | .clipStatus => words == 104
  | .stationStatus =>
    (List.range 32).any fun p => (List.range 9).any fun h => words == 109 + 4 * p + 7 * h
  | .block => words == 16400
  | k => words == k.requestWords

/-- The arbitration word: class × 64 + 2 × source + 1 (R2). -/
def arbitrationWord (cls station : Nat) : Nat := cls * 64 + 2 * station + 1

/-- The bytes of a message on the trunk: envelope, body, frame check (R1). -/
def envelope (station : Nat) (kind : Kind) (target : Nat) (body : List Byte) : List Byte :=
  let front := [byteOf (arbitrationWord kind.cls station), kind.code, byteOf station, byteOf target]
    ++ le16 (body.length / 4) ++ body
  front ++ leWord (crc front)

/-- A message whose bytes pass every test of R3 but the last: its arbitration word and the message. The last
test, that the station itself sent it, is on the event. Bytes beyond the announced length are not part of
the message (log 28). -/
def goodMessage (bytes : List Byte) : Option (Nat × Message) :=
  let words := halfAt bytes 4
  let size := 6 + 4 * words
  let arb := byteAt bytes 0
  let code := bytes.getD 1 0
  let source := byteAt bytes 2
  let target := byteAt bytes 3
  let arbOk := match Kind.ofCode code with
    | some k => arb == arbitrationWord k.cls source
    | none => arb % 64 == 2 * source + 1
  if 6 ≤ bytes.length && words ≤ 16400 && size + 4 ≤ bytes.length
      && wordAt bytes size == (crc (bytes.take size)).toNat
      && 1 ≤ source && source ≤ 31 && target ≤ 31 && arbOk then
    some (arb, ⟨code, source, target, slice bytes 6 (4 * words)⟩)
  else none

/-! ## Bodies -/

/-- The card tag in the first word of a body: station, serial. -/
def tagAt (body : List Byte) : Tag := ⟨byteAt body 0, BitVec.ofNat 16 (halfAt body 1)⟩

/-- The word of a card tag. -/
def tagWord (t : Tag) : List Byte := [byteOf t.station] ++ le16 t.serial.toNat ++ [0]

/-- A tag as a 32-bit detail: station × 65,536 + serial (R66). -/
def tagDetail (t : Tag) : Word := BitVec.ofNat 32 (t.station * 65536 + t.serial.toNat)

/-- A station number that a list may hold; others are skipped (R60). -/
def validStation (n : Nat) : Bool := 1 ≤ n && n ≤ 31

/-- The segments of so many blocks: divided by 256 and rounded up (R26, R60). -/
def segmentsOf (blocks : Nat) : Nat := (blocks + 255) / 256

/-- A CARD_ANNOUNCE as its taker reads it. -/
structure AnnounceBody where
  announce : Announce
  wanted : Nat
  excluded : List Nat
  deriving DecidableEq, Repr

/-- A round of 1 to 15 (R60). -/
def validRound (r : Nat) : Bool := 1 ≤ r && r ≤ 15

/-- A CARD_ANNOUNCE that passes R60. -/
def readAnnounce (m : Message) : Option AnnounceBody :=
  let b := m.body
  let tag := tagAt b
  let round := byteAt b 4
  let wanted := byteAt b 5
  let count := byteAt b 6
  let blocks := wordAt b 16
  let segments := wordAt b 20
  if tag.station == m.source && validRound round && 1 ≤ wanted && wanted ≤ 3 && count ≤ 6
      && blocks ≠ 0 && segments ≠ 0 && segments == segmentsOf blocks then
    some ⟨⟨tag, round, blocks, segments⟩, wanted,
      ((List.range count).map fun i => byteAt b (24 + i)).filter validStation⟩
  else none

/-- A CLAIM that passes R60: tag and round. The port and free-blocks fields are not used (R63). -/
def readClaim (m : Message) : Option (Tag × Nat) :=
  let tag := tagAt m.body
  let round := byteAt m.body 4
  if tag.station == m.target && validRound round then some (tag, round) else none

/-- A CLAIM_REPLY that passes R60: tag, round, granted stations. -/
def readClaimReply (m : Message) : Option (Tag × Nat × List Nat) :=
  let tag := tagAt m.body
  let round := byteAt m.body 4
  let count := byteAt m.body 5
  if tag.station == m.source && validRound round && count ≤ 3 then
    some (tag, round, ((List.range count).map fun i => byteAt m.body (8 + i)).filter validStation)
  else none

/-- A RUN_END that passes R60: tag and the listed stations, true for VERIFIED. -/
def readRunEnd (m : Message) : Option (Tag × List (Nat × Bool)) :=
  let tag := tagAt m.body
  let count := byteAt m.body 4
  let entries := (List.range count).map fun i => (byteAt m.body (8 + 2 * i), byteAt m.body (9 + 2 * i))
  if tag.station == m.source && 1 ≤ count && count ≤ 3
      && entries.all (fun e => e.2 == 1 || e.2 == 2) then
    some (tag, (entries.filter fun e => validStation e.1).map fun e => (e.1, e.2 == 1))
  else none

/-- A RUN_CANCEL that passes R60: its tag. The reason does not change the handling (R77). -/
def readRunCancel (m : Message) : Option Tag :=
  let reason := byteAt m.body 4
  if (tagAt m.body).station == m.source && (reason == 1 || reason == 2) then some (tagAt m.body) else none

/-- A BLOCK that passes R60, for buffer number n. The other bits of its flags byte are ignored (log 57). -/
def readBlock (m : Message) (n : Nat) : Option BulkBlock :=
  let b := m.body
  let attempt := byteAt b 8
  let flags := byteAt b 9
  if (tagAt b).station == m.source && 1 ≤ attempt && attempt ≤ 3 && wordAt b 12 == 65536 then
    some { buffer := n, tag := tagAt b, index := wordAt b 4, attempt := attempt,
           lastOfSegment := flags % 2 == 1, bad := flags / 2 % 2 == 1,
           crc := BitVec.ofNat 32 (wordAt b 16), data := b.drop 64 }
  else none

/-- The code of an outcome. -/
def ReportOutcome.code : ReportOutcome → Nat
  | .written => 1 | .missingBlocks => 2 | .writeFailed => 3 | .destFull => 4

/-- The outcome of a code. -/
def ReportOutcome.ofCode : Nat → Option ReportOutcome
  | 1 => some .written
  | 2 => some .missingBlocks
  | 3 => some .writeFailed
  | 4 => some .destFull
  | _ => none

/-- The fields of a SEGMENT_REPORT. first is FFFFh when no block mismatched. -/
structure Report where
  tag : Tag
  segment : Nat
  attempt : Nat
  outcome : ReportOutcome
  present : Nat
  first : Nat
  fold : Word
  deriving DecidableEq, Repr

/-- A SEGMENT_REPORT that passes R60. -/
def readReport (m : Message) : Option Report :=
  let b := m.body
  let attempt := byteAt b 6
  match ReportOutcome.ofCode (byteAt b 7) with
  | none => none
  | some outcome =>
    if (tagAt b).station == m.target && 1 ≤ attempt && attempt ≤ 3 then
      some ⟨tagAt b, halfAt b 4, attempt, outcome, halfAt b 8, halfAt b 10, BitVec.ofNat 32 (wordAt b 12)⟩
    else none

/-- The body of a SEGMENT_REPORT. A segment index above 65,535 is sent by its low 16 bits (log 41). -/
def reportBody (r : Report) : List Byte :=
  tagWord r.tag ++ le16 r.segment ++ [byteOf r.attempt, byteOf r.outcome.code]
    ++ le16 r.present ++ le16 r.first ++ leWord r.fold

/-- The body of a BLOCK (04, Message bodies). -/
def blockBody (b : StagedBlock) : List Byte :=
  tagWord b.tag ++ le32 b.index
    ++ [byteOf b.attempt, byteOf ((if b.lastOfSegment then 1 else 0) + (if b.bad then 2 else 0)), 0, 0]
    ++ le32 65536 ++ leWord b.crc ++ List.replicate 44 0 ++ blockBytes b.data

/-- A signed 16-bit field. -/
def signed16 (n : Nat) : Int := (BitVec.ofNat 16 n).toInt

/-- The fields of a PRESENCE body (R15). -/
def readPresence (body : List Byte) : PresenceFields :=
  ⟨byteAt body 0, byteAt body 1, byteAt body 2, BitVec.ofNat 32 (wordAt body 4), BitVec.ofNat 32 (wordAt body 8)⟩

/-- The version and name of a LOOK_PUBLISH, with its values clamped as they enter the record (R120). -/
def readLook (body : List Byte) : LookRecord :=
  { version := BitVec.ofNat 16 (halfAt body 1)
    name := slice body 4 8
    values :=
      { slopeR := min 4095 (halfAt body 12), slopeG := min 4095 (halfAt body 14),
        slopeB := min 4095 (halfAt body 16), saturation := min 2047 (halfAt body 18),
        offsetR := clampInt (-2048) 2047 (signed16 (halfAt body 20)),
        offsetG := clampInt (-2048) 2047 (signed16 (halfAt body 22)),
        offsetB := clampInt (-2048) 2047 (signed16 (halfAt body 24)),
        tone := (List.range 33).map fun i => min 4095 (halfAt body (28 + 2 * i)) } }

end Sys2Proof.Machine
end

