-- ==== Sys2Proof/Machine/Flags.lean ====
section
/-! DEFINITION. Codes, flag bytes and the words of records as the station reports them: fault records and
summary counts (chapter 10, Formats), state codes (R15, R170, R172), the slot lamps (R44). -/

namespace Sys2Proof.Machine

/-- A flag's weight in a flag byte. -/
def bit (w : Nat) (b : Bool) : Nat := if b then w else 0

/-! ## Faults (R156 to R161; 10, Formats) -/

/-- The levels of fault records. -/
inductive Level where
  | station | card | clip
  deriving DecidableEq, Repr

/-- The level code. -/
def Level.code : Level → Nat
  | .station => 1 | .card => 2 | .clip => 3

/-- The kind code. -/
def FaultKind.code : FaultKind → Nat
  | .droppedFrames => 0x01 | .counterRepeat => 0x02 | .timingSlip => 0x03 | .exposureClip => 0x04
  | .blackFrame => 0x05 | .frozenFrame => 0x06 | .lookClip => 0x07 | .lookMissing => 0x08
  | .clipReadError => 0x09 | .frameUnreadable => 0x0A | .proxyFull => 0x0B
  | .noIndex => 0x20 | .clipsTruncated => 0x21 | .cardReadError => 0x22 | .verifyMismatch => 0x23
  | .targetFailed => 0x24 | .copyShort => 0x25 | .cardRemovedEarly => 0x26
  | .syncLost => 0x40 | .duplicateNumber => 0x41 | .staleRunDropped => 0x42 | .orphanedRun => 0x43
  | .configDefaulted => 0x44

/-- The level a kind belongs to. -/
def FaultKind.level : FaultKind → Level
  | .droppedFrames | .counterRepeat | .timingSlip | .exposureClip | .blackFrame | .frozenFrame | .lookClip
  | .lookMissing | .clipReadError | .frameUnreadable | .proxyFull => .clip
  | .noIndex | .clipsTruncated | .cardReadError | .verifyMismatch | .targetFailed | .copyShort
  | .cardRemovedEarly => .card
  | .syncLost | .duplicateNumber | .staleRunDropped | .orphanedRun | .configDefaulted => .station

/-- A kind's place in the row of summary counts of its level: kind-code order. -/
def FaultKind.place (k : FaultKind) : Nat :=
  match k.level with
  | .clip => k.code - 0x01
  | .card => k.code - 0x20
  | .station => k.code - 0x40

/-- The kinds with a position, whose faults can extend a run (R156, R159 to R161). -/
def FaultKind.positioned : FaultKind → Bool
  | .droppedFrames | .counterRepeat | .timingSlip | .exposureClip | .blackFrame | .frozenFrame | .lookClip
  | .clipReadError | .frameUnreadable | .cardReadError | .verifyMismatch => true
  | _ => false

/-- The kinds whose detail is signed (R156). -/
def FaultKind.signed : FaultKind → Bool
  | .counterRepeat | .timingSlip => true
  | _ => false

/-- The code of a cause. -/
def Cause.code : Cause → Nat
  | .crc => 1 | .byte => 2 | .fold => 3 | .report => 4 | .missing => 5 | .timeout => 6

/-- An optional figure in a word: FFFFFFFFh when absent. -/
def optNat : Option Nat → List Byte
  | some n => le32 n
  | none => le32 0xFFFFFFFF

/-- An optional 32-bit value in a word: FFFFFFFFh when absent. -/
def optWord : Option Word → List Byte
  | some w => leWord w
  | none => le32 0xFFFFFFFF

/-- Bytes 2 and 3 of the first word of a record: target kind, port or station. -/
def targetBytes : Option TargetKey → List Byte
  | none => [0, 0]
  | some (.localPort .dc0) => [1, 0]
  | some (.localPort .dc1) => [1, 1]
  | some (.peer n) => [2, byteOf n]

/-- Words 4 to 9 of a record. -/
def detailWords (r : FaultRecord) : List Byte :=
  match r.verify with
  | none => leWord r.detail ++ List.replicate 20 0
  | some d =>
    [byteOf d.cause.code, byteOf d.attempt] ++ le16 d.segment ++ optNat d.block ++ optNat d.offset
      ++ optWord d.source ++ optWord d.drive ++ le32 d.count

/-- The 10-word layout of a fault record. -/
def recordWords (r : FaultRecord) : List Byte :=
  [byteOf r.kind.level.code, byteOf r.kind.code] ++ targetBytes r.target ++ le32 r.first ++ le32 r.last
    ++ le16 r.runLength ++ [0, 0] ++ detailWords r

/-- A row of summary counts with so many places. -/
def countWords (places : Nat) (counts : List Nat) : List Byte :=
  padTo (2 * places) (counts.flatMap le16)

/-- A fault list of eight places, oldest first; unused places are 0. -/
def listWords (records : List FaultRecord) : List Byte := padTo 320 (records.flatMap recordWords)

/-! ## State codes -/

/-- The number of a slot. -/
def slotNumber : SlotId → Nat
  | .s0 => 0 | .s1 => 1 | .s2 => 2 | .s3 => 3

/-- The slot of a number, if there is one. -/
def slotOfNumber : Nat → Option SlotId
  | 0 => some .s0
  | 1 => some .s1
  | 2 => some .s2
  | 3 => some .s3
  | _ => none

/-- The number of a port. -/
def portNumber : PortId → Nat
  | .dc0 => 0 | .dc1 => 1

/-- Station mode codes (R15). -/
def Mode.code : Mode → Nat
  | .listen => 0 | .run => 1 | .silent => 2 | .localOnly => 3

/-- Card state codes (R170). -/
def CardState.code : CardState → Nat
  | .indexing => 1 | .claiming => 2 | .copying => 3 | .settling => 4 | .short => 5 | .held => 6
  | .releasable => 7 | .overridden => 8 | .abandoned => 9

/-- Target state codes (R170). -/
def TargetState.code : TargetState → Nat
  | .pending => 1 | .writing => 2 | .verified => 3 | .failed => 4 | .dropped => 5

/-- Hosted state codes (R172). -/
def HostedState.code : HostedState → Nat
  | .reserved => 1 | .receiving => 2 | .complete => 3 | .cancelled => 4 | .orphaned => 5

/-- Drive state codes (R172). -/
def DriveState.code : DriveState → Nat
  | .absent => 0 | .ready => 1 | .failed => 2

/-- Drive class codes (R172). -/
def classCode : Option DriveClass → Nat
  | none => 0
  | some .spinning => 1
  | some .array => 2
  | some .flash => 3

/-! ## Lamps (R44) -/

/-- What a slot lamp shows. A blinking lamp carries its phase. -/
inductive Lamp where
  | off | amber | amberBlink (lit : Bool) | green | greenBlink (lit : Bool) | red
  deriving DecidableEq, Repr

/-- The lamp of a card record's state, as the table at the head of chapter 3 gives. -/
def lampOf : Option CardRecord → Lamp
  | none => .off
  | some c =>
    match c.state with
    | .indexing | .claiming | .copying | .settling => .amber
    | .short | .held => .amberBlink c.lampLit
    | .releasable => .green
    | .overridden => .greenBlink c.lampLit
    | .abandoned => .red

end Sys2Proof.Machine
end

