-- ==== Sys2Proof/Machine/Ops.lean ====
section
/-! DEFINITION. The named operations that the meanings share: access to the blocks of the part, handing a message to
the control send queue (R8), raising a fault and publishing it (R156 to R158, R163, R164), and the operations of
one Destination Channel on its record, queue, runs and jobs (R85 to R93). -/

namespace Sys2Proof.Machine

/-! ## Access -/

/-- The image the blocks read. Nothing reads it before the load ends, when it is absent (R176; log 25). -/
def State.cfg (s : State) : Image := s.image.getD defaultImage

/-- This station's number (R1). -/
def State.own (s : State) : Nat := s.cfg.station

/-- The configuration load is running (R176). -/
def State.loading (s : State) : Bool := s.image.isNone

/-- The Trunk Interface changed. -/
def State.modTrunk (s : State) (f : Trunk → Trunk) : State := { s with trunk := f s.trunk }

/-- The station mode. -/
def State.mode (s : State) : Mode := s.trunk.mode

/-- A slot's path through the Slot Reader. -/
def State.slot (s : State) (i : SlotId) : SlotReader := s.slots.get i

/-- One slot's path changed. -/
def State.modSlot (s : State) (i : SlotId) (f : SlotReader → SlotReader) : State :=
  { s with slots := s.slots.set i (f (s.slots.get i)) }

/-- A slot's card record; none is EMPTY. -/
def State.card (s : State) (i : SlotId) : Option CardRecord := s.cards.get i

/-- A slot's card record replaced. -/
def State.setCard (s : State) (i : SlotId) (c : Option CardRecord) : State :=
  { s with cards := s.cards.set i c }

/-- A slot's card record changed, if it is not EMPTY. -/
def State.modCard (s : State) (i : SlotId) (f : CardRecord → CardRecord) : State :=
  { s with cards := s.cards.set i ((s.cards.get i).map f) }

/-- A port's channel. -/
def State.port (s : State) (p : PortId) : Channel := s.ports.get p

/-- One channel changed. -/
def State.modPort (s : State) (p : PortId) (f : Channel → Channel) : State :=
  { s with ports := s.ports.set p (f (s.ports.get p)) }

/-- A clip of a card record changed. -/
def CardRecord.modClip (c : CardRecord) (n : Nat) (f : Clip → Clip) : CardRecord :=
  { c with clips := c.clips.modify n f }

/-- A clip record of a slot's card. -/
def State.clip (s : State) (i : SlotId) (n : Nat) : Option Clip := (s.card i).bind fun c => c.clips[n]?

/-- A clip record of a slot's card changed. -/
def State.modClip (s : State) (i : SlotId) (n : Nat) (f : Clip → Clip) : State :=
  s.modCard i fun c => c.modClip n f

/-- A change of a card record's state: the lamp follows, and a blink restarts lit (R44, log 17). -/
def CardRecord.enter (st : CardState) (c : CardRecord) : CardRecord := { c with state := st, lampLit := true }

/-- The slot whose record holds a tag (R122, R168): every record that is not EMPTY holds its own. -/
def State.holderOf (s : State) (t : Tag) : Option SlotId :=
  SlotId.inOrder.find? fun i => (s.card i).any fun c => c.tag == t

/-- The place of the hosted entry that holds a tag (R70). -/
def State.hostedPlace (s : State) (t : Tag) : Option Nat :=
  s.hosted.findIdx? fun e => e.any fun h => h.tag == t

/-- The entry in a place of the hosted table. -/
def State.hostedAt (s : State) (place : Nat) : Option HostedEntry := s.hosted.getD place none

/-- The entry in a place replaced. -/
def State.setHosted (s : State) (place : Nat) (e : Option HostedEntry) : State :=
  { s with hosted := s.hosted.set place e }

/-- An index entered in a set kept in increasing order. -/
def insertSorted (n : Nat) : List Nat → List Nat
  | [] => [n]
  | x :: xs => if n < x then n :: x :: xs else if n = x then x :: xs else x :: insertSorted n xs

/-- The first element with a property, and the list without it. -/
def takeFirst {α : Type} (p : α → Bool) : List α → Option (α × List α)
  | [] => none
  | x :: xs => if p x then some (x, xs) else (takeFirst p xs).map fun r => (r.1, x :: r.2)

/-- The last element with a property replaced by a list: kept with changes, or removed. -/
def onLast {α : Type} (p : α → Bool) (f : α → List α) : List α → List α
  | [] => []
  | x :: xs => if p x && !xs.any p then f x ++ xs else x :: onLast p f xs

/-! ## The control send queue (R8) -/

/-- The queue takes a message now: the mode is not SILENT or LOCAL-ONLY, and it holds fewer than 48. -/
def State.takesControl (s : State) : Bool :=
  s.mode != .silent && s.mode != .localOnly && s.trunk.sendQ.length < 48

/-- A message handed to the control send queue. A PRESENCE is not queued while another waits. -/
def handControl (kind : Kind) (target : Nat) (body : List Byte) (s : State) : State :=
  if s.takesControl && !(kind == .presence && s.trunk.sendQ.any fun m => m.kind == .presence) then
    s.modTrunk fun t => { t with sendQ := t.sendQ ++ [⟨kind, target, body⟩] }
  else s

/-! ## Faults (R156 to R158) -/

/-- The owner of a fault list. -/
inductive Owner where
  | station
  | card (slot : SlotId)
  | clip (slot : SlotId) (number : Nat)
  deriving DecidableEq, Repr

/-- The owner's list, counts and flag; none when there is no such record. -/
def State.logOf (s : State) : Owner → Option FaultLog
  | .station => some s.stationLog
  | .card i => (s.card i).map fun c => c.log
  | .clip i n => (s.clip i n).map fun c => c.log

/-- The owner's list, counts and flag replaced. -/
def State.setLog (s : State) (o : Owner) (l : FaultLog) : State :=
  match o with
  | .station => { s with stationLog := l }
  | .card i => s.modCard i fun c => { c with log := l }
  | .clip i n => s.modClip i n fun c => { c with log := l }

/-- A fault as it is raised. position is a frame position, a segment or a block index, 0 for a kind without
one. sticky says, for SYNC_LOST, that the sync-lost flag was already set (R156). -/
structure NewFault where
  kind : FaultKind
  target : Option TargetKey := none
  position : Nat := 0
  detail : Word := 0
  verify : Option VerifyDetail := none
  sticky : Bool := false
  deriving DecidableEq, Repr

/-- The fault extends the newest record of its kind (R156). -/
def NewFault.extendsRun (f : NewFault) (r : FaultRecord) : Bool :=
  if f.kind = .syncLost then f.sticky
  else f.kind.positioned && f.position == r.last + 1 && f.target == r.target

/-- The magnitude by which an extension keeps the larger detail (R156). -/
def magnitude (k : FaultKind) (d : Word) : Nat := if k.signed then d.toInt.natAbs else d.toNat

/-- A record extended by a fault. A VERIFY_MISMATCH record keeps the detail that began its run. -/
def FaultRecord.extended (r : FaultRecord) (f : NewFault) : FaultRecord :=
  { r with
    last := f.position
    runLength := satAdd 65535 r.runLength 1
    detail := if magnitude r.kind r.detail < magnitude r.kind f.detail then f.detail else r.detail }

/-- A new record: first position equal to last position, run length 1. -/
def NewFault.record (f : NewFault) : FaultRecord :=
  ⟨f.kind, f.target, f.position, f.position, 1, f.detail, f.verify⟩

/-- The list with its newest record of the fault's kind extended, if the fault extends it. The outer none says
that the list holds no record of the kind; the inner none that its newest is not extended. -/
def extendNewest (f : NewFault) : List FaultRecord → Option (Option (List FaultRecord))
  | [] => none
  | r :: rs =>
    match extendNewest f rs with
    | some found => some (found.map fun rs' => r :: rs')
    | none =>
      if r.kind = f.kind then some (if f.extendsRun r then some (r.extended f :: rs) else none) else none

/-- The owner word and the clip and slot word of a notice or summary (R164). -/
def State.ownerWords (s : State) : Owner → List Byte
  | .station => [0, 0, 0, 0] ++ le16 0xFFFF ++ [0xFF, 1]
  | .card i => ((s.card i).map fun c => tagWord c.tag).getD [0, 0, 0, 0]
      ++ le16 0xFFFF ++ [byteOf (slotNumber i), 2]
  | .clip i n => ((s.card i).map fun c => tagWord c.tag).getD [0, 0, 0, 0]
      ++ le16 n ++ [byteOf (slotNumber i), 3]

/-- The publication queue is filled: in LISTEN and RUN (R163). -/
def State.publishes (s : State) : Bool := s.mode == .listen || s.mode == .run

/-- A message entered in the publication queue, addressed to the report station (R163, R164). -/
def State.pushPublication (s : State) (kind : Kind) (body : List Byte) : State :=
  { s with pubQ := s.pubQ ++ [⟨kind, s.cfg.reportStation, body⟩] }

/-- The owner's publish-pending flag set or cleared. -/
def State.setPending (s : State) (o : Owner) (b : Bool) : State :=
  match s.logOf o with
  | none => s
  | some l => s.setLog o { l with pending := b }

/-- A newly appended record handed to the publication queue (R164). -/
def publishNotice (o : Owner) (r : FaultRecord) (s : State) : State :=
  if s.publishes then
    if s.pubQ.length < 64 then s.pushPublication .faultNotice (s.ownerWords o ++ recordWords r)
    else s.setPending o true
  else s

/-- The places of a summary's row of counts (10, Formats). -/
def summaryBody (s : State) (o : Owner) (l : FaultLog) (cause : Nat) : List Byte :=
  s.ownerWords o ++ [byteOf l.records.length, byteOf cause, 0, 0] ++ countWords 12 l.counts
    ++ listWords l.records

/-- A FAULT_SUMMARY formed for an owner: queued, and the flag cleared; or dropped, and the flag set
(R165, R166). -/
def publishSummary (o : Owner) (cause : Nat) (s : State) : State :=
  match s.logOf o with
  | none => s
  | some l =>
    if s.publishes then
      if s.pubQ.length < 64 then
        (s.pushPublication .faultSummary (summaryBody s o l cause)).setPending o false
      else s.setPending o true
    else s

/-- A fault raised against an owner: counted (R158), and extending a run, appended and published, or not stored
(R156, R157). A fault whose owner has gone is dropped (R162). -/
def raiseFault (o : Owner) (f : NewFault) (s : State) : State :=
  match s.logOf o with
  | none => s
  | some log =>
    let counted := { log with counts := log.counts.modify f.kind.place fun n => satAdd 65535 n 1 }
    match (extendNewest f log.records).join with
    | some rs => s.setLog o { counted with records := rs }
    | none =>
      if log.records.length < 8 then
        publishNotice o f.record (s.setLog o { counted with records := log.records ++ [f.record] })
      else s.setLog o counted

/-- An owner's summary count of a kind. -/
def State.countOf (s : State) (o : Owner) (k : FaultKind) : Nat :=
  ((s.logOf o).map fun l => l.counts.getD k.place 0).getD 0

/-! ## One Destination Channel -/

/-- The reserved run an item belongs to; a proxy frame belongs to none (R143). -/
def WorkItem.run : WorkItem → Option Nat
  | .write r _ _ _ _ | .readback r _ _ _ | .settle r _ _ => some r
  | .proxy _ => none

/-- A block write. -/
def WorkItem.isWrite : WorkItem → Bool
  | .write .. => true
  | _ => false

/-- A proxy frame write. -/
def WorkItem.isProxy : WorkItem → Bool
  | .proxy _ => true
  | _ => false

/-- The places taken: an item in service stays in the queue (R89). -/
def Channel.occupied (c : Channel) : Nat := c.queue.length + (if c.serving.isSome then 1 else 0)

/-- The free places of the work queue. A port that is not READY or is finishing a warm restart takes no item
(R83, R182; of proxy frames, log 65). -/
def Channel.room (c : Channel) : Nat :=
  if c.state = .ready && !c.finishing then 16 - c.occupied else 0

/-- Free blocks: capacity − used − reserved, computed and not stored. -/
def Channel.freeBlocks (c : Channel) : Nat := c.fig.capacity - c.fig.used - c.fig.reserved

/-- What the start of an item's service does: a read-back job releases the capture (R97), and a full-mode one
starts its compare (R95). -/
def Channel.startService (x : WorkItem) (c : Channel) : Channel :=
  match x with
  | .readback _ _ _ full => { c with capture := none, compare := if full then some ⟨0, 0, 0, none⟩ else none }
  | _ => c

/-- With no item in service, the oldest item that is not a proxy frame is taken, or the oldest proxy frame when
nothing else waits (R90). -/
def Channel.serve (c : Channel) : Channel :=
  if c.serving.isSome || c.finishing then c
  else
    match (takeFirst (fun x => !x.isProxy) c.queue).or (takeFirst (fun x => x.isProxy) c.queue) with
    | none => c
    | some (x, rest) => { c with serving := some x, queue := rest }.startService x

/-- Freed places go first to the read-backs waiting at the channel, in the order they began to wait (R89); then the
next item is chosen. -/
def Channel.refresh (c : Channel) : Channel :=
  let n := 16 - c.occupied
  { c with queue := c.queue ++ c.readbacks.take n, readbacks := c.readbacks.drop n }.serve

/-- An item brought by a requester that found room. -/
def Channel.bring (x : WorkItem) (c : Channel) : Channel := { c with queue := c.queue ++ [x] }.serve

/-- A read-back that the channel itself brings: it enters, or waits at the channel (R89). -/
def Channel.bringReadback (x : WorkItem) (c : Channel) : Channel :=
  if c.occupied < 16 then c.bring x else { c with readbacks := c.readbacks ++ [x] }

/-- The service of the item ends, and the channel goes on (R90). -/
def Channel.endService (c : Channel) : Channel := { c with serving := none, compare := none }.refresh

/-- A run's items removed (R92). A block write in service completes; every other item of the run in service stops.
An ORPHANED entry keeps its waiting block writes. -/
def Channel.dropItems (run : Nat) (keepWrites : Bool) (c : Channel) : Channel :=
  let mine := fun x : WorkItem => x.run == some run
  let stops := c.serving.any fun x => mine x && !x.isWrite
  { c with
    queue := c.queue.filter fun x => !mine x || (keepWrites && x.isWrite)
    readbacks := c.readbacks.filter fun x => !mine x
    jobs := c.jobs.filter fun j => j.run != run
    serving := if stops then none else c.serving
    compare := if stops then none else c.compare }.refresh

/-- The blocks of a run whose writes the port has accepted and not completed. -/
def Channel.acceptedBlocks (run : Nat) (c : Channel) : List Nat :=
  (c.serving.toList ++ c.queue).filterMap fun
    | .write r b _ _ _ => if r = run then some b else none
    | _ => none

/-- How many distinct blocks of a list are not yet marked in a run's map. -/
def Run.unmarked (r : Run) (blocks : List Nat) : Nat :=
  ((blocks.filter fun b => !r.written.contains b).foldl (fun acc b => insertSorted b acc) []).length

/-- A run ends its hold on the port (R87): its items are removed first, then the unwritten remainder returns. A write
already accepted is still written and counted, so the blocks it will move stay reserved until it completes
(R92, R175; log 11). -/
def Channel.endRun (run : Nat) (keepWrites : Bool) (c : Channel) : Channel :=
  let c := c.dropItems run keepWrites
  match c.runs.find? fun r => r.id == run with
  | none => c
  | some r =>
    let accepted := c.acceptedBlocks run
    let kept := min (r.unmarked accepted) r.reservation
    { c with
      fig := { c.fig with reserved := c.fig.reserved - (r.reservation - kept) }
      runs := if accepted.isEmpty then c.runs.filter fun x => x.id != run
              else c.runs.map fun x => if x.id = run then { x with reservation := kept, ended := true } else x }

/-- A completed block write moves its block from reserved to used at its first write (R86). A run's reservation is
the number of its unmarked blocks, so neither figure is 0 when a mark is clear. -/
def Channel.countWrite (run block : Nat) (c : Channel) : Channel :=
  match c.runs.find? fun r => r.id == run with
  | none => c
  | some r =>
    if r.written.contains block then c
    else
      let marked := fun n => c.runs.map fun x =>
        if x.id = run then { x with written := insertSorted block x.written, reservation := n } else x
      if r.reservation = 0 || c.fig.reserved = 0 then { c with runs := marked r.reservation }
      else
        { c with
          fig := { c.fig with reserved := c.fig.reserved - 1, used := c.fig.used + 1 }
          runs := marked (r.reservation - 1) }

/-- The block's place on the drive takes the data written (R91). -/
def Channel.store (run block : Nat) (data : List Byte) (c : Channel) : Channel :=
  { c with media := (c.media.filter fun m => m.run != run || m.block != block) ++ [⟨run, block, data⟩] }

/-- A run that ended with accepted writes leaves once the last of them is done. -/
def Channel.clearEnded (run : Nat) (c : Channel) : Channel :=
  match c.runs.find? fun r => r.id == run with
  | none => c
  | some r =>
    if r.ended && (c.acceptedBlocks run).isEmpty then
      { c with fig := { c.fig with reserved := c.fig.reserved - r.reservation }
               runs := c.runs.filter fun x => x.id != run }
    else c

/-- The channel grants a request for so many blocks: READY, and the free blocks are enough (R85). -/
def Channel.grants (n : Nat) (c : Channel) : Bool := c.state == .ready && n ≤ c.freeBlocks

/-- A granted reservation (R85). -/
def Channel.reserve (id : Nat) (owner : RunOwner) (n : Nat) (c : Channel) : Channel :=
  { c with fig := { c.fig with reserved := c.fig.reserved + n }
           runs := c.runs ++ [⟨id, owner, n, [], false⟩] }

/-- A port lost: its items, jobs, capture, runs and figures go (R83). -/
def Channel.lose (st : DriveState) (c : Channel) : Channel :=
  { Channel.start with state := st, media := if st = .failed then c.media else [],
                       proxies := if st = .failed then c.proxies else [], requests := c.requests }

/-- A drive attached: READY with the reported figures, the used figure taken no larger than the capacity (R82). -/
def Channel.attach (r : DriveReport) : Channel :=
  { Channel.start with state := .ready, cls := some r.cls, fig := ⟨r.capacity, min r.used r.capacity, 0⟩ }

/-- The reservation of a run: 0 when the channel keeps no such run. -/
def Channel.reservationOf (run : Nat) (c : Channel) : Nat :=
  ((c.runs.find? fun r => r.id == run).map fun r => r.reservation).getD 0

/-- The blocks written for a run: the marks of its map. -/
def Channel.writtenOf (run : Nat) (c : Channel) : Nat :=
  ((c.runs.find? fun r => r.id == run).map fun r => r.written.length).getD 0

/-- A job is that of a segment and attempt of a run. -/
def SegmentJob.isOf (j : SegmentJob) (run segment attempt : Nat) : Bool :=
  j.run == run && j.segment == segment && j.attempt == attempt

/-- The job of a segment and attempt of a run. Of two, which only a segment that R72 opens again under the same attempt
can have, the first opened is the one whose read-back is due (R93; log 45). -/
def Channel.job (run segment attempt : Nat) (c : Channel) : Option SegmentJob :=
  c.jobs.find? fun j => j.isOf run segment attempt

/-- The segment job discarded. -/
def Channel.dropJob (run segment attempt : Nat) (c : Channel) : Channel :=
  { c with jobs := c.jobs.filter fun j => !j.isOf run segment attempt }

/-- The job of a hosted segment whose read-back has ended: the first opened (log 45). -/
def Channel.dropReadJob (run segment attempt : Nat) (c : Channel) : Channel :=
  { c with jobs := c.jobs.eraseP fun j => j.isOf run segment attempt }

/-- The job of an open hosted segment that is discarded, or closes without a read-back: the last opened (R93;
log 45). -/
def Channel.dropOpenJob (run segment attempt : Nat) (c : Channel) : Channel :=
  { c with jobs := onLast (fun j => j.isOf run segment attempt) (fun _ => []) c.jobs }

/-- A job opened, with no source CRC kept yet (R93). -/
def Channel.openJob (run segment attempt expected : Nat) (c : Channel) : Channel :=
  { c with jobs := c.jobs ++ [⟨run, segment, attempt, expected, []⟩] }

/-- A source CRC kept at its position, in place of the one a repeated block left there. -/
def SegmentJob.keep (position : Nat) (crc : Word) (j : SegmentJob) : SegmentJob :=
  { j with kept := (j.kept.filter fun k => k.1 != position) ++ [(position, crc)] }

/-- A source CRC kept in the job of its segment, the last opened; a LOCAL run's first write of a segment and attempt
opens the job (R93). -/
def Channel.keepCrc (run segment attempt expected position : Nat) (crc : Word) (c : Channel) : Channel :=
  let c := if (c.job run segment attempt).isNone then c.openJob run segment attempt expected else c
  { c with jobs := onLast (fun j => j.isOf run segment attempt) (fun j => [j.keep position crc]) c.jobs }

end Sys2Proof.Machine
end

