-- ==== Sys2Proof/Machine/Records.lean ====
section
/-! DEFINITION. Card records as the Offload Controller keeps them: targets and cells (R42, R102), the end of SETTLING
(R50, R51) and the entry to SHORT (R52, R53). -/

namespace Sys2Proof.Machine

/-! ## Targets and cells -/

/-- The target of a key: no station and no port appears twice in a list (R42). -/
def CardRecord.target (c : CardRecord) (k : TargetKey) : Option Target := c.targets.find? fun t => t.key == k

/-- One target changed. -/
def CardRecord.modTarget (c : CardRecord) (k : TargetKey) (f : Target → Target) : CardRecord :=
  { c with targets := c.targets.map fun t => if t.key = k then f t else t }

/-- The cell of a segment in a target's column. -/
def Target.cell (t : Target) (segment : Nat) : Cell := t.cells.getD segment ⟨.notSent, 1, none⟩

/-- A cell replaced. -/
def Target.setCell (t : Target) (segment : Nat) (c : Cell) : Target := { t with cells := t.cells.set segment c }

/-- A cell of the segment table replaced. -/
def CardRecord.setCell (c : CardRecord) (k : TargetKey) (segment : Nat) (cell : Cell) : CardRecord :=
  c.modTarget k fun t => t.setCell segment cell

/-- A target in VERIFIED, FAILED or DROPPED (R43). -/
def Target.final (t : Target) : Bool :=
  t.state == .verified || t.state == .failed || t.state == .dropped

/-- A target in PENDING or WRITING. -/
def Target.active (t : Target) : Bool := t.state == .pending || t.state == .writing

/-- A PEER target. -/
def Target.isPeer (t : Target) : Bool :=
  match t.key with
  | .peer _ => true
  | .localPort _ => false

/-- Segments verified: the cells of the column in VERIFIED (R102). -/
def Target.verifiedSegments (t : Target) : Nat := t.cells.countP fun c => c.state == .verified

/-- The VERIFIED targets of the record, of every round (R51). -/
def CardRecord.verifiedCount (c : CardRecord) : Nat := c.targets.countP fun t => t.state == .verified

/-- The PEER targets in the list. -/
def CardRecord.peerCount (c : CardRecord) : Nat := c.targets.countP fun t => t.isPeer

/-- A new column: every cell NOT_SENT, attempt 1 (R102). -/
def newColumn (segments : Nat) : List Cell := List.replicate segments ⟨.notSent, 1, none⟩

/-- The blocks of a row of the segment table: 256, or what the last segment holds (R102). -/
def segmentSize (blocks segments segment : Nat) : Nat :=
  if segment + 1 = segments then blocks - 256 * (segments - 1) else 256

/-- The rows of a new segment table: one per segment, with no source fold (R41, R102). -/
def newRows (blocks segments : Nat) : List Row :=
  (List.range segments).map fun i => ⟨segmentSize blocks segments i, none⟩

/-- The source fold of a segment, absent until entered. -/
def CardRecord.sourceFold (c : CardRecord) (segment : Nat) : Option Word :=
  (c.rows[segment]?).bind fun r => r.fold

/-! ## Messages about a run -/

/-- The body of RUN_END: the listed stations, true for VERIFIED (04, Message bodies). -/
def runEndBody (t : Tag) (listed : List (Nat × Bool)) : List Byte :=
  tagWord t ++ [byteOf listed.length, 0, 0, 0]
    ++ padTo 8 (listed.flatMap fun e => [byteOf e.1, if e.2 then 1 else 2])

/-- Why a RUN_CANCEL is sent. -/
inductive CancelReason where
  | cardRemoved | targetDropped
  deriving DecidableEq, Repr

/-- The body of RUN_CANCEL. -/
def runCancelBody (t : Tag) (r : CancelReason) : List Byte :=
  tagWord t ++ [(if r = .cardRemoved then 1 else 2 : Byte), 0, 0, 0]

/-- The PEER targets of the current round with an outcome to report, in list order (R51, R76). -/
def CardRecord.roundOutcomes (c : CardRecord) : List (Nat × Bool) :=
  c.targets.filterMap fun t =>
    match t.key with
    | .localPort _ => none
    | .peer n =>
      if t.roundFormed = c.round then
        (match t.state with
        | .verified => some (n, true)
        | .failed => some (n, false)
        | _ => none)
      else none

/-! ## SHORT (R52, R53) -/

/-- The copies wanted by a new round (R54). -/
def CardRecord.copiesWanted (c : CardRecord) : Nat := min (c.k - c.verifiedCount) (3 - c.peerCount)

/-- The retry timer may start: LISTEN or RUN, a round below 15, a copy wanted (R53). -/
def State.retryAllowed (s : State) (c : CardRecord) : Bool :=
  (s.mode == .listen || s.mode == .run) && c.round < 15 && 1 ≤ c.copiesWanted

/-- A station added to the excluded stations, oldest first, at most 6 (R52). -/
def addExcluded (n : Nat) (xs : List Nat) : List Nat :=
  if xs.contains n then xs else (xs ++ [n]).drop ((xs.length + 1) - 6)

/-- The detail of TARGET_FAILED: the port, or 256 + the station (R52). -/
def targetFailedDetail : TargetKey → Word
  | .localPort p => BitVec.ofNat 32 (portNumber p)
  | .peer n => BitVec.ofNat 32 (256 + n)

/-- One FAILED or DROPPED target removed at entry to SHORT (R52, steps 1 and 2). -/
def removeTarget (i : SlotId) (k : TargetKey) (s : State) : State :=
  let s := s.modCard i fun c => { c with
    targets := c.targets.filter fun t => t.key != k
    excluded := match k with
      | .peer n => addExcluded n c.excluded
      | .localPort _ => c.excluded }
  raiseFault (.card i) { kind := .targetFailed, detail := targetFailedDetail k } s

/-- Entry to SHORT (R52), with the retry timer started where R53 allows it. Several targets are removed in the order of
the target list (log 53). -/
def enterShort (i : SlotId) (c : CardRecord) (s : State) : State :=
  let s := s.modCard i (CardRecord.enter .short)
  let gone := (c.targets.filter fun t => t.state == .failed || t.state == .dropped).map fun t => t.key
  let s := gone.foldl (fun s k => removeTarget i k s) s
  let s := raiseFault (.card i)
    { kind := .copyShort, detail := BitVec.ofNat 32 (c.k - c.verifiedCount) } s
  s.modCard i fun c => { c with retryTimer := if s.retryAllowed c then some s.cfg.retryInterval else none }

/-- The end of SETTLING (R51): RUN_END, then RELEASABLE, HELD or SHORT. -/
def endSettling (i : SlotId) (c : CardRecord) (s : State) : State :=
  let s := if c.roundOutcomes.isEmpty then s
    else handControl .runEnd 0 (runEndBody c.tag c.roundOutcomes) s
  if c.k ≤ c.verifiedCount then
    if c.hold || 0 < c.sourceErrors then s.modCard i (CardRecord.enter .held)
    else s.modCard i (CardRecord.enter .releasable)
  else enterShort i c s

/-- The SETTLING test, made on entry to SETTLING and at each change of a target's state (R50). -/
def settlingTest (i : SlotId) (s : State) : State :=
  match s.card i with
  | none => s
  | some c => if c.state = .settling && c.targets.all Target.final then endSettling i c s else s

end Sys2Proof.Machine
end

