-- ==== Sys2Proof/Machine/Items.lean ====
section
/-! DEFINITION. The items of a slot's read queue (R29): what each reads and whom it serves (R30 to R35). -/

namespace Sys2Proof.Machine

/-- The first block an item reads. -/
def ReadItem.start : ReadItem → Nat
  | .firstPass | .roundPass _ => 0
  | .resend seg _ _ _ | .compare seg _ _ _ => 256 * seg

/-- One past the last block an item reads, for a used range of so many blocks. -/
def ReadItem.stop (blocks : Nat) : ReadItem → Nat
  | .firstPass | .roundPass _ => blocks
  | .resend seg _ _ _ | .compare seg _ _ _ => min (256 * (seg + 1)) blocks

/-- The attempt whose blocks an item delivers: passes send attempt 1 (R103). -/
def ReadItem.attempt : ReadItem → Nat
  | .firstPass | .roundPass _ => 1
  | .resend _ _ _ a | .compare _ _ _ a => a

/-- A pass, as opposed to a re-read. -/
def ReadItem.isPass : ReadItem → Bool
  | .firstPass | .roundPass _ => true
  | _ => false

/-- A compare re-read, which delivers to the Check Unit alone (R35). -/
def ReadItem.isCompare : ReadItem → Bool
  | .compare .. => true
  | _ => false

/-- The ports that an item's blocks are written to: LOCAL targets in WRITING (R30, R34). -/
def CardRecord.copyPorts (c : CardRecord) (item : ReadItem) : List PortId :=
  c.targets.filterMap fun t =>
    match t.key with
    | .peer _ => none
    | .localPort p =>
      if t.state = .writing && (match item with
          | .firstPass => true
          | .resend _ k r _ => k == t.key && r == t.roundFormed
          | _ => false)
      then some p else none

/-- The stations that an item's BLOCKs are for: PEER targets in WRITING (R30, R33, R34). -/
def CardRecord.copyPeers (c : CardRecord) (item : ReadItem) : List Nat :=
  c.targets.filterMap fun t =>
    match t.key with
    | .localPort _ => none
    | .peer n =>
      if t.state = .writing && (match item with
          | .firstPass => true
          | .roundPass r => r == t.roundFormed
          | .resend _ k r _ => k == t.key && r == t.roundFormed
          | .compare .. => false)
      then some n else none

/-- The first pass counts the frame parser as a receiver while a tracked clip's range lies partly in the used
range (R32). -/
def CardRecord.parserHolds (c : CardRecord) : Bool :=
  c.clips.any fun k => 0 < k.count && k.first < c.blockCount

/-- The item still has a receiver (R32, R35). A compare's is the LOCAL target whose segment job asked for it. -/
def State.itemLive (s : State) (i : SlotId) (item : ReadItem) : Bool :=
  match s.card i with
  | none => false
  | some c =>
    match item with
    | .firstPass => !(c.copyPorts item).isEmpty || !(c.copyPeers item).isEmpty || c.parserHolds
    | .roundPass _ => !(c.copyPeers item).isEmpty
    | .resend .. => !(c.copyPorts item).isEmpty || !(c.copyPeers item).isEmpty
    | .compare seg p run a =>
      (c.targets.any fun t => t.key == .localPort p && t.state == .writing && t.run == some run)
        && ((s.port p).job run seg a).isSome

/-- The running item of a slot. -/
def SlotReader.running (r : SlotReader) : Option ReadItem :=
  if r.state = .reading then r.queue.head? else none

end Sys2Proof.Machine
end

