-- ==== Sys2Proof/Machine/Line.lean ====
section
/-! DEFINITION. Room and turn: what a requester needs before its item can enter (R31, R71, R89), where a hosted block is
placed (R72), and who goes first when places are short (R9, R89; log 8). -/

namespace Sys2Proof.Machine

/-! ## Where a hosted block is placed (R72) -/

/-- The result of comparing a BLOCK with the entry's open segment. -/
inductive Placement where
  | ignored
  /-- The block joins the open segment. -/
  | joins
  /-- A newer attempt of the open segment: the open attempt is discarded. -/
  | reopens
  /-- Another segment: the open one, if any, closes. -/
  | opens
  deriving DecidableEq, Repr

/-- The expected size of a segment of a hosted copy (R70, R73). -/
def HostedEntry.segmentSize (e : HostedEntry) (segment : Nat) : Nat :=
  Sys2Proof.Machine.segmentSize e.blockCount e.segmentCount segment

/-- A block of a segment other than the open one: first-send blocks move forward only, and an attempt already reported
is not taken again. -/
def HostedEntry.placeOther (e : HostedEntry) (segment attempt : Nat) : Placement :=
  if attempt = 1 then
    match e.highest with
    | none => .opens
    | some h => if segment ≤ h then .ignored else .opens
  else
    match e.lastClosed with
    | none => .opens
    | some l => if l.segment = segment && l.attempt == attempt then .ignored else .opens

/-- The table of R72. -/
def HostedEntry.place (e : HostedEntry) (segment attempt : Nat) : Placement :=
  match e.opened with
  | none => e.placeOther segment attempt
  | some o =>
    if segment = o.segment then
      if attempt = o.attempt then .joins else if o.attempt < attempt then .reopens else .ignored
    else e.placeOther segment attempt

/-- The open segment holds every block it should, and is not marked beyond the reservation (R73). -/
def HostedEntry.openFull (e : HostedEntry) : Bool :=
  e.opened.any fun o => o.present.length == e.segmentSize o.segment && !o.beyond

/-- The places a BLOCK needs before it is handed over: one for its write, two when it also closes a segment that is
read back, none when it is not written (R71). -/
def HostedEntry.places (e : HostedEntry) (b : BulkBlock) : Nat :=
  match e.place (b.index / 256) b.attempt with
  | .ignored => 0
  | .joins | .reopens => if e.blockCount ≤ b.index then 0 else 1
  | .opens => if e.blockCount ≤ b.index then 0 else if e.openFull then 2 else 1

/-! ## Needs and room -/

/-- Places needed or free: in the two work queues and among the staging buffers. -/
structure Places where
  dc0 : Nat
  dc1 : Nat
  staging : Nat
  deriving DecidableEq, Repr

/-- So many places at one port. -/
def Places.atPort (p : PortId) (n : Nat) : Places :=
  match p with
  | .dc0 => ⟨n, 0, 0⟩
  | .dc1 => ⟨0, n, 0⟩

/-- Everything needed is there. -/
def Places.within (need room : Places) : Bool :=
  need.dc0 ≤ room.dc0 && need.dc1 ≤ room.dc1 && need.staging ≤ room.staging

/-- The entry that holds a tag and takes its BLOCKs: one in RECEIVING (R11). -/
def State.receiving (s : State) (t : Tag) : Option HostedEntry :=
  match s.hostedPlace t with
  | none => none
  | some place => (s.hostedAt place).filter fun e => e.state == .receiving

/-- What a requester needs now. While SILENT a BLOCK for staging is accepted and discarded, so it needs no buffer (R9). -/
def State.need (s : State) : Requester → Places
  | .slot i =>
    match (s.slot i).running, s.card i with
    | some item, some c =>
      let ports := c.copyPorts item
      ⟨ports.count .dc0, ports.count .dc1, if (c.copyPeers item).isEmpty || s.mode == .silent then 0 else 1⟩
    | _, _ => ⟨0, 0, 0⟩
  | .bulk n =>
    match s.trunk.bulk.find? fun b => b.buffer == n with
    | none => ⟨0, 0, 0⟩
    | some b =>
      match s.receiving b.tag with
      | none => ⟨0, 0, 0⟩
      | some e => .atPort e.port (e.places b)
  | .outbox i =>
    match (s.grade.outbox.get i).port with
    | none => ⟨0, 0, 0⟩
    | some p => .atPort p 1

/-- The free places now. -/
def State.room (s : State) : Places :=
  ⟨(s.port .dc0).room, (s.port .dc1).room, 3 - s.trunk.staging.length⟩

/-- The places kept for those who began to wait earlier. One that cannot go anyway, because another of its receivers has
no room, keeps no place here (log 8). -/
def State.keptFor (s : State) (ahead : List Requester) : Places :=
  let room := s.room
  let keeps := fun (mine : Places → Nat) (only : Places → Places) =>
    ((ahead.map s.need).filter fun n => (only n).within room).foldl (fun acc n => acc + mine n) 0
  ⟨keeps Places.dc0 fun n => { n with dc0 := 0 }, keeps Places.dc1 fun n => { n with dc1 := 0 },
    keeps Places.staging fun n => { n with staging := 0 }⟩

/-- There is room for a need behind the requesters ahead. -/
def State.fitsBehind (s : State) (need : Places) (ahead : List Requester) : Bool :=
  let kept := s.keptFor ahead
  let room := s.room
  (need.dc0 = 0 || need.dc0 + kept.dc0 ≤ room.dc0) && (need.dc1 = 0 || need.dc1 + kept.dc1 ≤ room.dc1)
    && (need.staging = 0 || need.staging + kept.staging ≤ room.staging)

/-- The port of a waiting BLOCK: that of the entry that takes it (R11). -/
def State.bulkPort (s : State) (b : BulkBlock) : Option PortId := (s.receiving b.tag).map HostedEntry.port

/-- The waiting BLOCKs that arrived after a BLOCK and go to the same port (R11). -/
def State.laterBulk (s : State) (n : Nat) : List Requester :=
  match s.trunk.bulk.dropWhile fun b => b.buffer != n with
  | [] => []
  | b :: later => (later.filter fun x => s.bulkPort x == s.bulkPort b).map fun x => .bulk x.buffer

/-- Those ahead of a requester in the line. Buffers for one port are handed over in arrival order, so a BLOCK comes no
later than the first BLOCK in the line that arrived after it for the same port (R11; log 8). -/
def State.ahead (s : State) (r : Requester) : List Requester :=
  match r with
  | .bulk n => s.line.takeWhile fun x => x != r && !(s.laterBulk n).contains x
  | _ => s.line.takeWhile fun x => x != r

/-- A requester's item can enter now, in its turn (R31, R71, R89, R142). -/
def State.mayEnter (s : State) (r : Requester) : Bool := s.fitsBehind (s.need r) (s.ahead r)

/-! ## The line of requesters (R9, R31, R89; log 8) -/

/-- A slot holds a block for copy receivers. -/
def SlotReader.holdsCopy (r : SlotReader) : Bool :=
  (r.running.any fun item => !item.isCompare) && r.progress.any fun p => p.hand.isSome

/-- Everything that has something to bring: slots with a copy's block in hand, waiting BLOCKs in arrival order, heads of
outboxes. -/
def State.bearers (s : State) : List Requester :=
  ((SlotId.inOrder.filter fun i => (s.slot i).holdsCopy).map Requester.slot)
    ++ (s.trunk.bulk.map fun b => Requester.bulk b.buffer)
    ++ ((SlotId.inOrder.filter fun i => (s.grade.outbox.get i).port.isSome).map Requester.outbox)

/-- The line once requesters not in it begin to wait at one moment. Before them come those who hold something, do not
wait, and could not enter behind them: they found room, or lost it, before (log 8). -/
def State.lineAfter (s : State) (joining : List Requester) : List Requester :=
  let behind : State := { s with line := s.line ++ joining }
  s.line ++ (s.bearers.filter fun x => !joining.contains x && !s.line.contains x && !behind.mayEnter x) ++ joining

/-- The line once one requester waits. -/
def State.lineWith (s : State) (r : Requester) : List Requester :=
  if s.line.contains r then s.line else s.lineAfter [r]

/-- A requester begins to wait. -/
def joinLine (r : Requester) (s : State) : State := { s with line := s.lineWith r }

/-- A requester that entered, or whose item was dropped, leaves the line. -/
def leaveLine (r : Requester) (s : State) : State := { s with line := s.line.filter fun x => x != r }

/-- A requester that has something to bring begins to wait when there is no room for it (R31, R71, R142). -/
def waitForRoom (r : Requester) (s : State) : State := if s.mayEnter r then s else joinLine r s

/-- Those who hold something, do not wait, and have no room. -/
def State.losers (s : State) : List Requester :=
  s.bearers.filter fun x => !s.line.contains x && !s.mayEnter x

/-- Those who have lost their room begin to wait at one moment, and then those for whom the places now kept leave no
room. The first argument bounds how often. -/
def noteLosers : Nat → State → State
  | 0, s => s
  | n + 1, s =>
    match s.losers with
    | [] => s
    | lost => noteLosers n { s with line := s.lineAfter lost }

/-- Places have been taken: those who hold something and have lost their room begin to wait, in the order of the bearers
(R9, R89; log 8). -/
def noteWaiting (s : State) : State := noteLosers s.bearers.length s

end Sys2Proof.Machine
end

