-- ==== Sys2Proof/Machine/Reads.lean ====
section
/-! DEFINITION. The read queue of a slot (R29): how an item begins, goes on to its next block, stops when its last
receiver leaves (R32), and ends (R50). -/

namespace Sys2Proof.Machine

/-! ## Serving the queue -/

/-- The hand of a block of the bad-block set: zeros, the zero-block CRC, the bad-source flag (R24). -/
def badHand (index : Nat) : Hand := ⟨index, [], blockCrc [], true⟩

/-- The running read holds a block to deliver: a copy's block for its receivers, which waits in line when one of them has
no room (R31), a compare's for the channel's compare (R35). -/
def takeInHand (i : SlotId) (h : Hand) (s : State) : State :=
  let s := s.modSlot i fun r => { r with
    tries := 0, progress := r.progress.map fun p => { p with hand := some h } }
  if ((s.slot i).running.map ReadItem.isCompare).getD true then s else waitForRoom (.slot i) s

/-- The running read goes on to a block. A block of the bad-block set is not tried again (R24). -/
def toBlock (i : SlotId) (n : Nat) (s : State) : State :=
  let s := s.modSlot i fun r => { r with
    tries := 0, progress := r.progress.map fun p => { p with next := n, hand := none } }
  if (s.slot i).bad.contains n then takeInHand i (badHand n) s else s

/-- What the beginning of an item changes in the record: the targets a pass serves enter WRITING (R49). -/
def beginItem (i : SlotId) (item : ReadItem) (s : State) : State :=
  match item with
  | .firstPass => s.modCard i fun c => { c with
      targets := c.targets.map fun t => if t.state = .pending then { t with state := .writing } else t }
  | .roundPass r => s.modCard i fun c => { c with
      targets := c.targets.map fun t =>
        if t.state = .pending && t.roundFormed == r then { t with state := .writing } else t }
  | _ => s

/-- A live item starts at its first block; the channel brings the read-back item of a compare re-read as it begins
(R95). -/
def startItem (i : SlotId) (item : ReadItem) (s : State) : State :=
  let s := s.modSlot i fun r => { r with progress := some ⟨item.start, none, 0, false⟩ }
  let s := toBlock i item.start s
  match item with
  | .compare seg p run a => noteWaiting (s.modPort p (Channel.bringReadback (.readback run seg a true)))
  | _ => s

/-- The item at the head leaves the queue, and a request waiting at its requester enters (R29). -/
def dropHead (i : SlotId) (s : State) : State :=
  leaveLine (.slot i) (s.modSlot i fun r => { r with
    queue := r.queue.tail ++ r.waiting.take 1, waiting := r.waiting.drop 1, progress := none, tries := 0 })

/-- A pass that has ended is told to the Offload Controller, and the record leaves COPYING for SETTLING (R50). -/
def afterItem (i : SlotId) (item : ReadItem) (s : State) : State :=
  match s.card i with
  | none => s
  | some c =>
    if item.isPass && c.state == .copying then settlingTest i (s.modCard i (CardRecord.enter .settling)) else s

/-- The next item is served. One without a receiver stops before its first block (R32, R112); after the last the slot
becomes READY (R29). The first argument bounds the items that can stop so. -/
def serveReads (i : SlotId) : Nat → State → State
  | 0, s => s
  | n + 1, s =>
    match (s.slot i).queue with
    | [] => s.modSlot i fun r => { r with state := .ready }
    | item :: _ =>
      let s := beginItem i item s
      if s.itemLive i item then startItem i item s
      else serveReads i n (afterItem i item (dropHead i s))

/-- The items of a slot, running and waiting. -/
def SlotReader.items (r : SlotReader) : Nat := r.queue.length + r.waiting.length

/-- The running item ends, and the next is served. -/
def endItem (i : SlotId) (s : State) : State :=
  match (s.slot i).running with
  | none => s
  | some item => serveReads i ((s.slot i).items + 1) (afterItem i item (dropHead i s))

/-- A running read whose last receiver has left stops (R32). -/
def stopIfDead (i : SlotId) (s : State) : State :=
  match (s.slot i).running with
  | none => s
  | some item => if s.itemLive i item then s else endItem i s

/-- A request for an item (R29): started at once in READY, queued in READING, waiting at its requester while the queue
holds 8, and not taken in EMPTY or MOUNTING. -/
def requestRead (i : SlotId) (item : ReadItem) (s : State) : State :=
  match (s.slot i).state with
  | .ready => serveReads i 2 (s.modSlot i fun r => { r with state := .reading, queue := [item] })
  | .reading =>
    s.modSlot i fun r =>
      if r.queue.length < 8 then { r with queue := r.queue ++ [item] }
      else { r with waiting := r.waiting ++ [item] }
  | .empty | .mounting => s

end Sys2Proof.Machine
end

