-- ==== Sys2Proof/Machine/Segments.lean ====
section
/-! DEFINITION. Segment accounting (chapter 6): cells entering SENT, results judged, failed attempts, targets that fail
or are dropped, and the resend list. -/

namespace Sys2Proof.Machine

/-! ## The resend list (R111 to R113) -/

/-- The re-read of the entry at the head is requested (R112). -/
def requestHead (i : SlotId) (s : State) : State :=
  match s.card i with
  | none => s
  | some c =>
    match c.resend with
    | [] => s
    | e :: _ =>
      match c.target e.target with
      | none => s
      | some t => requestRead i (.resend e.segment e.target t.roundFormed e.attempt) s

/-- The keys of a record in the order of the sweep: LOCAL DC0, LOCAL DC1, then PEER targets by station (R113). -/
def sweepKeys : List TargetKey :=
  [.localPort .dc0, .localPort .dc1] ++ (List.range 32).map TargetKey.peer

/-- The cell in MISMATCH that a freed place lists: lowest segment, then the order of the keys (R113). -/
def CardRecord.sweepCell (c : CardRecord) : Option (Nat × TargetKey) :=
  (List.range c.segmentCount).findSome? fun seg =>
    (sweepKeys.find? fun k => (c.target k).any fun t => (t.cell seg).state == .mismatch).map fun k => (seg, k)

/-- A cell joins the list at the end with its next attempt (R109, R111, R113). -/
def CardRecord.listCell (c : CardRecord) (k : TargetKey) (seg attempt : Nat) : CardRecord :=
  { c.setCell k seg ⟨.resendListed, attempt, none⟩ with resend := c.resend ++ [⟨seg, k, attempt⟩] }

/-- Freed places filled one after another while cells wait in MISMATCH (R113). -/
def CardRecord.fillPlaces : Nat → CardRecord → CardRecord
  | 0, c => c
  | n + 1, c =>
    match c.sweepCell with
    | none => c
    | some (seg, k) =>
      CardRecord.fillPlaces n (c.listCell k seg (((c.target k).map fun t => (t.cell seg).attempt).getD 1 + 1))

/-- Entries leave the list, the places they free are filled, and a new head's re-read is requested (R112,
R113). -/
def removeEntries (i : SlotId) (p : ResendEntry → Bool) (s : State) : State :=
  match s.card i with
  | none => s
  | some c =>
    let kept := c.resend.filter fun e => !p e
    let freed := c.resend.length - kept.length
    let headLeft := c.resend.head?.any p
    let s := s.setCard i (some (CardRecord.fillPlaces freed { c with resend := kept }))
    if headLeft then requestHead i s else s

/-! ## Cells entering SENT (R103) -/

/-- The first block of a segment is handed to a target: its cell enters SENT with the attempt, from NOT_SENT, or from
RESEND_LISTED with its entry's attempt, which then leaves the list. -/
def cellSent (i : SlotId) (k : TargetKey) (seg attempt : Nat) (s : State) : State :=
  match (s.card i).bind fun c => c.target k with
  | none => s
  | some t =>
    match (t.cell seg).state with
    | .notSent => s.modCard i fun c => c.setCell k seg ⟨.sent, attempt, none⟩
    | .resendListed =>
      if (t.cell seg).attempt = attempt then
        removeEntries i (fun e => e.segment == seg && e.target == k)
          (s.modCard i fun c => c.setCell k seg ⟨.sent, attempt, none⟩)
      else s
    | _ => s

/-! ## Targets that end -/

/-- A target becomes FAILED or DROPPED, settled as one step (R110): its column, its resend entries, its reservation
and items, a RUN_CANCEL where one is due (R77, R80), the running read, and the SETTLING test. -/
def endTarget (i : SlotId) (k : TargetKey) (st : TargetState) (cancel : Bool) (s : State) : State :=
  match s.card i with
  | none => s
  | some c =>
    match c.target k with
    | none => s
    | some t =>
      if t.active then
        let s := s.modCard i fun c => c.modTarget k fun t => { t with
          state := st
          cells := t.cells.map fun cell =>
            if cell.state = .verified then cell else { cell with state := .failed, timer := none } }
        let s := removeEntries i (fun e => e.target == k) s
        let s := match k, t.run with
          | .localPort p, some run => s.modPort p (Channel.endRun run false)
          | _, _ => s
        let s := match k with
          | .peer n => if cancel then handControl .runCancel n (runCancelBody c.tag .targetDropped) s else s
          | .localPort _ => s
        settlingTest i (stopIfDead i s)
      else s

/-! ## Judging a segment -/

/-- A failed attempt (R108, R109): the fault, then the cell by its attempt number. -/
def failedAttempt (i : SlotId) (k : TargetKey) (d : VerifyDetail) (s : State) : State :=
  let s := raiseFault (.card i)
    { kind := .verifyMismatch, target := some k, position := d.segment, verify := some d } s
  match s.card i with
  | none => s
  | some c =>
    if d.attempt < 3 then
      if c.resend.length < 64 then
        let s := s.setCard i (some (c.listCell k d.segment (d.attempt + 1)))
        if c.resend.isEmpty then requestHead i s else s
      else s.setCard i (some (c.setCell k d.segment ⟨.mismatch, d.attempt, none⟩))
    else
      endTarget i k .failed true (s.setCard i (some (c.setCell k d.segment ⟨.failed, d.attempt, none⟩)))

/-- A cell enters VERIFIED; a target whose every cell is VERIFIED becomes VERIFIED (R114), and receives no more of the
running read (R51; log 51). -/
def verifiedCell (i : SlotId) (k : TargetKey) (seg attempt : Nat) (s : State) : State :=
  let s := s.modCard i fun c => c.setCell k seg ⟨.verified, attempt, none⟩
  match s.card i with
  | none => s
  | some c =>
    match c.target k with
    | none => s
    | some t =>
      if t.state = .writing && t.verifiedSegments == c.segmentCount then
        let s := s.modCard i fun c => c.modTarget k fun t => { t with state := .verified }
        let s := match k, t.run with
          | .localPort p, some run => s.modPort p (Channel.endRun run false)
          | _, _ => s
        settlingTest i (stopIfDead i s)
      else s

/-- A result of a LOCAL read-back (R94, R95). mismatches counts blocks in digest mode and bytes in full mode. -/
structure LocalResult where
  segment : Nat
  attempt : Nat
  fold : Word
  first : Option Nat
  mismatches : Nat
  capture : Option Capture
  full : Bool
  deriving DecidableEq, Repr

/-- The detail of a failed local result: CRC or BYTE from the capture copy, FOLD when every block agrees (R108). -/
def LocalResult.detail (r : LocalResult) (tag : Tag) (source : Option Word) : VerifyDetail :=
  match r.capture with
  | some cap =>
    ⟨tag, r.segment, r.attempt, if r.full then .byte else .crc, some cap.block, cap.offset, some cap.source,
      some cap.drive, cap.count⟩
  | none => ⟨tag, r.segment, r.attempt, .fold, none, none, source, some r.fold, 0⟩

/-- A local result is judged against its cell in SENT with its attempt; any other is discarded (R104). -/
def judgeLocal (i : SlotId) (p : PortId) (r : LocalResult) (s : State) : State :=
  match s.card i with
  | none => s
  | some c =>
    match c.target (.localPort p) with
    | none => s
    | some t =>
      if c.state != .abandoned && (t.cell r.segment).state == .sent
          && (t.cell r.segment).attempt == r.attempt then
        if c.sourceFold r.segment == some r.fold && r.mismatches == 0 && r.first == none then
          verifiedCell i (.localPort p) r.segment r.attempt s
        else failedAttempt i (.localPort p) (r.detail c.tag (c.sourceFold r.segment)) s
      else s

/-- A report is judged by its outcome against a cell in SENT with its attempt (R105). -/
def judgeReport (i : SlotId) (station : Nat) (r : Report) (s : State) : State :=
  match s.card i with
  | none => s
  | some c =>
    match c.target (.peer station) with
    | none => s
    | some t =>
      let source := c.sourceFold r.segment
      if r.segment < c.segmentCount && (t.cell r.segment).state == .sent
          && (t.cell r.segment).attempt == r.attempt then
        match r.outcome with
        | .written =>
          if r.present == ((c.rows[r.segment]?).map fun w => w.blocks).getD 0 && source == some r.fold
              && r.first == 0xFFFF then
            verifiedCell i (.peer station) r.segment r.attempt s
          else
            failedAttempt i (.peer station)
              ⟨c.tag, r.segment, r.attempt, .report,
                if r.first = 0xFFFF then none else some (256 * r.segment + r.first), none, source,
                some r.fold, r.present⟩ s
        | .missingBlocks =>
          failedAttempt i (.peer station)
            ⟨c.tag, r.segment, r.attempt, .missing, none, none, source, some 0, r.present⟩ s
        | .writeFailed | .destFull => endTarget i (.peer station) .failed true s
      else s

/-- The records whose reports are not evaluated (R81). -/
def CardState.ignoresReports : CardState → Bool
  | .abandoned | .releasable | .held | .overridden | .short => true
  | _ => false

/-! ## Report timers (R106) -/

/-- The BLOCK of a segment's last block has left its buffer for a target station, 0 for all: the timer starts in every
cell concerned that is in SENT with its attempt, unless the record is ABANDONED (R58). -/
def startReportTimers (b : StagedBlock) (s : State) : State :=
  if b.lastOfSegment then
    match s.holderOf b.tag with
    | none => s
    | some i => s.modCard i fun c =>
      if c.state = .abandoned then c
      else { c with targets := c.targets.map fun t =>
        match t.key with
        | .localPort _ => t
        | .peer n =>
          let seg := b.index / 256
          let cell := t.cell seg
          if (b.target = 0 || b.target = n) && cell.state == .sent && cell.attempt == b.attempt then
            t.setCell seg { cell with timer := some s.cfg.reportTimeout }
          else t }
  else s

end Sys2Proof.Machine
end

