-- ==== Sys2Proof/Machine/Rounds.lean ====
section
/-! DEFINITION. Rounds of a card (chapters 3 and 4): entering COPYING (R48), announcing (R61), the claim window
(R62 to R65), new rounds (R54), local targets (R45) and the way out of INDEXING (R46). -/

namespace Sys2Proof.Machine

/-- Entry to COPYING: the pass of the round is requested, or SETTLING is entered at once (R48). -/
def enterCopying (i : SlotId) (s : State) : State :=
  let s := s.modCard i fun c => { c.enter .copying with window := .none }
  match s.card i with
  | none => s
  | some c =>
    if c.round = 1 then requestRead i .firstPass s
    else if c.targets.any fun t => t.isPeer && t.roundFormed == c.round then
      requestRead i (.roundPass c.round) s
    else settlingTest i (s.modCard i (CardRecord.enter .settling))

/-- The stations a CARD_ANNOUNCE excludes: the PEER targets in list order, then the excluded stations newest first, at
most 6 (R61). -/
def CardRecord.announceExcludes (c : CardRecord) : List Nat :=
  ((c.targets.filterMap fun t =>
    match t.key with
    | .peer n => some n
    | .localPort _ => none) ++ c.excluded.reverse).take 6

/-- The body of CARD_ANNOUNCE (04, Message bodies). -/
def announceBody (c : CardRecord) (wanted : Nat) : List Byte :=
  tagWord c.tag ++ [byteOf c.round, byteOf wanted, byteOf c.announceExcludes.length, 0] ++ padTo 8 c.roll
    ++ le32 c.blockCount ++ le32 c.segmentCount ++ padTo 8 (c.announceExcludes.map byteOf)

/-- The length of a claim window: the configured one, or the 2,000 ms limit of a zero window (R62). -/
def State.windowLength (s : State) : Nat := if s.cfg.claimWindow = 0 then 2000 else s.cfg.claimWindow

/-- A claim window opens with an empty ranked list (R62, R63). -/
def openWindow (i : SlotId) (wanted : Nat) (s : State) : State :=
  s.modCard i fun c => { c with window := .opened wanted [] s.windowLength }

/-- Entry to CLAIMING: the announce is handed to the control send queue; a full queue opens the window at once
(R61, R62). -/
def enterClaiming (i : SlotId) (wanted : Nat) (s : State) : State :=
  let s := s.modCard i fun c => { c.enter .claiming with window := .unsent wanted }
  match s.card i with
  | none => s
  | some c =>
    if s.takesControl then handControl .cardAnnounce 0 (announceBody c wanted) s
    else openWindow i wanted s

/-- A new round (R54). -/
def newRound (i : SlotId) (s : State) : State :=
  match s.card i with
  | none => s
  | some c =>
    enterClaiming i c.copiesWanted (s.modCard i fun c => { c with round := c.round + 1, retryTimer := none })

/-- The PEER target of a granted claim (R65). -/
def CardRecord.grant (c : CardRecord) (station : Nat) : CardRecord :=
  { c with targets := c.targets ++ [⟨.peer station, .pending, c.round, newColumn c.segmentCount, none⟩] }

/-- The body of CLAIM_REPLY. -/
def claimReplyBody (c : CardRecord) (granted : List Nat) : List Byte :=
  tagWord c.tag ++ [byteOf c.round, byteOf granted.length, 0, 0] ++ padTo 4 (granted.map byteOf)

/-- The window closes on its timer or on the wanted count (R65). -/
def closeWindow (i : SlotId) (s : State) : State :=
  match s.card i with
  | none => s
  | some c =>
    match c.window with
    | .opened wanted ranked _ =>
      let granted := ranked.take wanted
      let s := s.modCard i fun c => granted.foldl CardRecord.grant c
      enterCopying i (handControl .claimReply 0 (claimReplyBody c granted) s)
    | _ => s

/-- The close test of a window configured as 0: the ranked claims reach the copies wanted (R62, R64). -/
def zeroWindowTest (i : SlotId) (s : State) : State :=
  match (s.card i).map CardRecord.window with
  | some (.opened wanted ranked _) =>
    if s.cfg.claimWindow = 0 && wanted ≤ ranked.length then closeWindow i s else s
  | _ => s

/-! ## From index to copying -/

/-- The peer copies wanted once the local targets are formed (R46). -/
def CardRecord.peerCopiesWanted (c : CardRecord) : Nat := min 3 (c.k - c.targets.length)

/-- The record leaves INDEXING (R46). -/
def leaveIndexing (i : SlotId) (s : State) : State :=
  match s.card i with
  | none => s
  | some c =>
    if c.peerCopiesWanted = 0 then enterCopying i s
    else
      match s.mode with
      | .run => if s.trunk.presence.isEmpty then enterCopying i s else enterClaiming i c.peerCopiesWanted s
      | .listen => s.modCard i fun c => { c with waitingForRun := true }
      | .silent | .localOnly => enterCopying i s

/-- The use flag of a port (R45, R66). -/
def State.uses (s : State) : PortId → Bool
  | .dc0 => s.cfg.useDc0
  | .dc1 => s.cfg.useDc1

/-- A LOCAL target in the list of a record in INDEXING: DC0 before DC1, whichever port answered first (R42; log 14). -/
def CardRecord.addLocal (c : CardRecord) (p : PortId) (run : Nat) : CardRecord :=
  let t : Target := ⟨.localPort p, .pending, c.round, newColumn c.segmentCount, some run⟩
  { c with targets :=
      match p with
      | .dc0 => t :: c.targets
      | .dc1 => c.targets ++ [t] }

/-- A channel takes a record's reservation request: granted, it forms a LOCAL target in PENDING; refused, it forms none
and records no fault (R45, R85). -/
def askReservation (i : SlotId) (p : PortId) (s : State) : State :=
  match s.card i with
  | none => s
  | some c =>
    if (s.port p).grants c.blockCount then
      let s := s.modPort p (Channel.reserve s.nextRun (.card i c.tag) c.blockCount)
      let s := s.modCard i fun c => c.addLocal p s.nextRun
      { s with nextRun := s.nextRun + 1 }
    else s

/-- The request for a used port reaches its channel; one that finishes a warm restart answers when it has finished (R45,
R182). -/
def requestLocal (i : SlotId) (s : State) (p : PortId) : State :=
  if s.uses p then
    if (s.port p).finishing then
      (s.modCard i fun c => { c with forming := c.forming ++ [p] }).modPort p
        fun ch => { ch with requests := ch.requests ++ [.card i] }
    else askReservation i p s
  else s

/-- With the last answer the local targets are formed, and the record leaves INDEXING (R46). -/
def formedTest (i : SlotId) (s : State) : State :=
  if (s.card i).any fun c => c.forming.isEmpty then leaveIndexing i s else s

/-- The local targets are formed (R45): both ports are asked as the index is taken, DC0 first, so that a port that
becomes READY later is not used (R82; log 14). -/
def formTargets (i : SlotId) (s : State) : State :=
  formedTest i (PortId.inOrder.foldl (requestLocal i) (s.modCard i fun c => { c with forming := [] }))

end Sys2Proof.Machine
end

