-- ==== Sys2Proof/Machine/Hosted.lean ====
section
/-! DEFINITION. The claimant side (chapter 4): hosted entries, their segments and reports, and how a run ends. -/

namespace Sys2Proof.Machine

/-- The BLOCKs of a tag waiting in bulk receive buffers are dropped when its entry leaves RECEIVING (R11). -/
def dropBulk (t : Tag) (s : State) : State :=
  let gone := (s.trunk.bulk.filter fun b => b.tag == t).map fun b => Requester.bulk b.buffer
  { s.modTrunk fun k => { k with bulk := k.bulk.filter fun b => b.tag != t } with
    line := s.line.filter fun r => !gone.contains r }

/-- A formed SEGMENT_REPORT handed to the control send queue for an entry, addressed to the tag's station (R74). The
last report's first mismatch takes its value, whether or not the queue then takes the report (log 40). -/
def sendReport (place : Nat) (tag : Tag) (o : OwedReport) (f : FormedReport) (s : State) : State :=
  let s := s.setHosted place ((s.hostedAt place).map fun e => { e with lastMismatch := f.first })
  handControl .segmentReport tag.station
    (reportBody ⟨tag, o.segment, o.attempt, f.outcome, o.present, f.first, f.fold⟩) s

/-- The reports an entry owes, as far as they are formed, are queued in the order in which their segments closed; one
behind a segment that awaits its read-back waits for that one's (R74). -/
def queueReports (place : Nat) (s : State) : State :=
  match s.hostedAt place with
  | none => s
  | some e =>
    (e.owed.takeWhile fun o => o.formed.isSome).foldl
      (fun s o => match o.formed with
        | none => s
        | some f => sendReport place e.tag o f s)
      (s.setHosted place (some { e with owed := e.owed.dropWhile fun o => o.formed.isSome }))

/-- The report of a segment without a read-back (R74). -/
def OpenSegment.unread (o : OpenSegment) : FormedReport := ⟨if o.beyond then .destFull else .missingBlocks, 0xFFFF, 0⟩

/-- An open segment closes (R73): a full one is read back; the report of any other is formed at once, and its job is
discarded (R93). -/
def closeSegment (place : Nat) (s : State) : State :=
  match s.hostedAt place with
  | none => s
  | some e =>
    match e.opened with
    | none => s
    | some o =>
      let owes := fun f : Option FormedReport => s.setHosted place (some { e with
        opened := none, lastClosed := some ⟨o.segment, o.attempt, o.present.length⟩,
        owed := e.owed ++ [⟨o.segment, o.attempt, o.present.length, f⟩] })
      if e.openFull then
        (owes none).modPort e.port (Channel.bringReadback (.readback e.run o.segment o.attempt false))
      else
        queueReports place
          ((owes (some o.unread)).modPort e.port (Channel.dropOpenJob e.run o.segment o.attempt))

/-- The first report of a segment and attempt that awaits its read-back, formed. -/
def formReport (segment attempt : Nat) (f : FormedReport) : List OwedReport → List OwedReport
  | [] => []
  | o :: os =>
    if o.segment = segment ∧ o.attempt = attempt ∧ o.formed = none then { o with formed := some f } :: os
    else o :: formReport segment attempt f os

/-- An entry is freed: its items and its reservation end at the port, its waiting BLOCKs are dropped (R78, R87).
keepWrites is for an ORPHANED entry, whose accepted block writes are still written and counted (R79). -/
def freeEntry (place : Nat) (keepWrites : Bool) (s : State) : State :=
  match s.hostedAt place with
  | none => s
  | some e => dropBulk e.tag ((s.modPort e.port (Channel.endRun e.run keepWrites)).setHosted place none)

/-- A COMPLETE or CANCELLED entry is freed when the port holds no further item of it (R78). -/
def freeIfDone (place : Nat) (s : State) : State :=
  match s.hostedAt place with
  | none => s
  | some e =>
    if (e.state == .complete || e.state == .cancelled) && ((s.port e.port).acceptedBlocks e.run).isEmpty then
      freeEntry place false s
    else s

/-- An entry in RECEIVING becomes COMPLETE or CANCELLED (R78). What it still owed to report is not queued (log 50). -/
def finishEntry (place : Nat) (st : HostedState) (s : State) : State :=
  match s.hostedAt place with
  | none => s
  | some e =>
    let s := s.setHosted place (some { e with state := st, opened := none, owed := [] })
    let s := dropBulk e.tag (s.modPort e.port (Channel.dropItems e.run false))
    freeIfDone place s

/-- An entry whose source is lost becomes ORPHANED (R79): it keeps its place, its reservation and its accepted block
writes. -/
def orphanEntry (place : Nat) (s : State) : State :=
  match s.hostedAt place with
  | none => s
  | some e =>
    let s := s.setHosted place (some { e with state := .orphaned, opened := none, owed := [] })
    let s := dropBulk e.tag (s.modPort e.port (Channel.dropItems e.run true))
    raiseFault .station { kind := .orphanedRun, detail := tagDetail e.tag } s

/-- An entry is settled by the loss of its source's station (R79). -/
def settleLostSource (station place : Nat) (s : State) : State :=
  match s.hostedAt place with
  | none => s
  | some e =>
    if e.tag.station = station then
      match e.state with
      | .reserved => freeEntry place false s
      | .receiving => orphanEntry place s
      | _ => s
    else s

/-- A channel's answer to a claim's request (R67): granted, the entry is made in RESERVED and a CLAIM is queued with the
free blocks before the reservation. The new entry takes the lowest free place (log 12). -/
def answerClaim (p : PortId) (a : Announce) (s : State) : State :=
  match s.hostedPlace a.tag, s.hosted.findIdx? Option.isNone with
  | none, some place =>
    let free := (s.port p).freeBlocks
    if (s.port p).grants a.blockCount then
      let s := s.modPort p (Channel.reserve s.nextRun (.hosted a.tag) a.blockCount)
      let s := s.setHosted place (some
        { tag := a.tag, round := a.round, port := p, blockCount := a.blockCount,
          segmentCount := a.segmentCount, state := .reserved, run := s.nextRun,
          reservationTimer := some 6000, highest := none, opened := none, lastClosed := none,
          lastMismatch := 0xFFFF, owed := [] })
      handControl .claim a.tag.station
        (tagWord a.tag ++ [byteOf a.round, byteOf (portNumber p), 0, 0] ++ le32 free)
        { s with nextRun := s.nextRun + 1 }
    else s
  | _, _ => s

/-- The port a station claims with (R66, R67): among the used ports that are READY with enough free blocks, the one with
the most, DC0 on a tie. -/
def State.claimPort (s : State) (blocks : Nat) : Option PortId :=
  let ok := fun p => s.uses p && (s.port p).grants blocks
  if ok .dc0 && (!ok .dc1 || (s.port .dc1).freeBlocks ≤ (s.port .dc0).freeBlocks) then some .dc0
  else if ok .dc1 then some .dc1 else none

/-- An announce ends an old run of its tag (R66): the entry is freed and STALE_RUN_DROPPED recorded. A COMPLETE or
CANCELLED entry is left to finish. -/
def endStaleRun (t : Tag) (s : State) : State :=
  match s.hostedPlace t with
  | none => s
  | some place =>
    match (s.hostedAt place).map HostedEntry.state with
    | some .reserved | some .receiving =>
      raiseFault .station { kind := .staleRunDropped, detail := tagDetail t } (freeEntry place false s)
    | some .orphaned =>
      raiseFault .station { kind := .staleRunDropped, detail := tagDetail t } (freeEntry place true s)
    | _ => s

/-- The decision to claim on an announce (R66, R67). A channel finishing a warm restart makes the request wait (log 14), in
place of an earlier one for the same tag at the same port; one that waits at the other port stays there (log 64). -/
def considerClaim (a : AnnounceBody) (s : State) : State :=
  let t := a.announce.tag
  if s.mode == .run && t.station != s.own && !a.excluded.contains s.own && (s.hostedPlace t).isNone
      && s.hosted.any Option.isNone then
    match s.claimPort a.announce.blockCount with
    | none => s
    | some p =>
      if (s.port p).finishing then
        s.modPort p fun c => { c with requests := c.requests.filter (fun
          | .hosted h => h.tag != t
          | .card _ => true) ++ [.hosted a.announce] }
      else answerClaim p a.announce s
  else s

/-- A block placed in its entry (R72). Opening a segment restarts its idle timer; a block beyond the block count marks
the segment that takes it (R71). -/
def HostedEntry.joined (e : HostedEntry) (b : BulkBlock) (idle : Nat) (o : OpenSegment) : HostedEntry :=
  { e with opened := some { o with
      present := insertSorted b.index o.present, lastSeen := o.lastSeen || b.lastOfSegment,
      beyond := o.beyond || e.blockCount ≤ b.index, timer := idle } }

/-- A segment opened afresh. -/
def newSegment (segment attempt idle : Nat) : OpenSegment := ⟨segment, attempt, [], false, false, idle⟩

/-- The block joins the open segment of the entry, is written unless it is beyond the reservation, and closes the
segment if it carries the last-of-segment flag (R71 to R73). A block beyond the block count has no write to hand over,
and closes its segment at once (log 42). -/
def writeBlock (place : Nat) (b : BulkBlock) (s : State) : State :=
  match s.hostedAt place with
  | none => s
  | some e =>
    match e.opened with
    | none => s
    | some o =>
      let s := s.setHosted place (some (e.joined b s.cfg.segmentIdle o))
      let s := if e.blockCount ≤ b.index then s
        else s.modPort e.port fun c =>
          (c.keepCrc e.run o.segment o.attempt (e.segmentSize o.segment) (b.index % 256) b.crc).bring
            (.write e.run b.index b.attempt b.crc b.data)
      if b.lastOfSegment then closeSegment place s else s

/-- The entry opens a segment, and with it a segment job (R72, R93). -/
def openSegment (place : Nat) (e : HostedEntry) (segment attempt : Nat) (highest : Option Nat) (s : State) : State :=
  (s.setHosted place (some { e with
    opened := some (newSegment segment attempt s.cfg.segmentIdle), highest := highest })).modPort e.port
    (Channel.openJob e.run segment attempt (e.segmentSize segment))

/-- A BLOCK taken from its buffer and placed under R72. -/
def placeBlock (place : Nat) (e : HostedEntry) (b : BulkBlock) (s : State) : State :=
  let seg := b.index / 256
  match e.place seg b.attempt with
  | .ignored => s
  | .joins => noteWaiting (writeBlock place b s)
  | .reopens =>
    let s := match e.opened with
      | none => s
      | some o => s.modPort e.port (Channel.dropOpenJob e.run o.segment o.attempt)
    noteWaiting (writeBlock place b (openSegment place e seg b.attempt e.highest s))
  | .opens =>
    let s := closeSegment place s
    match s.hostedAt place with
    | none => s
    | some e => noteWaiting
        (writeBlock place b (openSegment place e seg b.attempt (if b.attempt = 1 then some seg else e.highest) s))

/-- The reports that an entry in RECEIVING still owes when its port is lost: WRITE_FAILED for each segment open or
awaiting its read-back, or for the last closed one when there is none (R75; log 16). -/
def HostedEntry.lostReports (e : HostedEntry) : List OwedReport :=
  let lost := fun segment attempt present : Nat => OwedReport.mk segment attempt present (some ⟨.writeFailed, 0xFFFF, 0⟩)
  let last := match e.lastClosed with
    | some l => lost l.segment l.attempt l.present
    | none => lost 0 1 0
  e.owed.map (fun o => if o.formed = none then lost o.segment o.attempt o.present else o)
    ++ match e.opened with
      | some o => [lost o.segment o.attempt o.present.length]
      | none => if e.owed.any fun o => o.formed.isNone then [] else [last]

/-- An entry settled by the loss of its port (R75). -/
def settleLostPort (place : Nat) (s : State) : State :=
  match s.hostedAt place with
  | none => s
  | some e =>
    let s := if e.state = .receiving then
        queueReports place (s.setHosted place (some { e with owed := e.lostReports }))
      else s
    dropBulk e.tag (s.setHosted place none)

end Sys2Proof.Machine
end

