-- ==== Sys2Proof/Machine/Proxies.lean ====
section
/-! DEFINITION. Proxy frames (R139 to R143): production, the outboxes, the hold frames, and their layout on a drive. -/

namespace Sys2Proof.Machine

/-- The port of an offered proxy frame (R139): DC0 if READY, otherwise DC1 if READY, otherwise none. -/
def State.proxyPort (s : State) : Option PortId :=
  if (s.port .dc0).state = .ready then some .dc0
  else if (s.port .dc1).state = .ready then some .dc1 else none

/-- The 786,432 bytes of a proxy frame on the drive (R140). -/
def proxyImage (f : ProxyFrame) : List Byte :=
  padTo 786432
    ([0x9D, 0x52, 0xE0, 0x3C, byteOf f.tag.station] ++ le16 f.tag.serial.toNat
      ++ [byteOf (bit 1 f.held + bit 2 f.black)] ++ le16 f.clip
      ++ [byteOf ((f.look.map Latched.slot).getD 0xFF), 0]
      ++ le16 ((f.look.map fun l => l.version.toNat).getD 0) ++ le16 f.repeats
      ++ leWord f.counter ++ leWord f.timestamp
      ++ padTo 8 ((f.look.map Latched.name).getD (List.replicate 8 0x20))
      ++ List.replicate 32 0 ++ planeBytes f.plane)

/-- PROXY_FULL against a clip, at most once per clip (R88, R142): 0 or 1 the port, 2 the outbox. -/
def raiseProxyFull (tag : Tag) (clip detail : Nat) (s : State) : State :=
  match s.holderOf tag with
  | none => s
  | some i =>
    if s.countOf (.clip i clip) .proxyFull = 0 then
      raiseFault (.clip i clip) { kind := .proxyFull, detail := BitVec.ofNat 32 detail } s
    else s

/-- A proxy frame enters a work queue (R140, R141). A held frame's plane is fixed: the hold frame's when it belongs to
the same tag and clip, black otherwise. A graded frame becomes the hold frame. -/
def enterProxy (i : SlotId) (p : PortId) (f : ProxyFrame) (s : State) : State :=
  if f.held then
    let f := match s.grade.hold.get i with
      | some h => if h.tag = f.tag ∧ h.clip = f.clip then { f with plane := h.plane, black := false }
        else { f with plane := [], black := true }
      | none => { f with plane := [], black := true }
    noteWaiting (s.modPort p (Channel.bring (.proxy f)))
  else
    noteWaiting { s.modPort p (Channel.bring (.proxy f)) with
      grade := { s.grade with hold := s.grade.hold.set i (some ⟨f.tag, f.clip, f.plane⟩) } }

/-- A slot's outbox replaced. -/
def State.setOutbox (s : State) (i : SlotId) (o : Outbox) : State :=
  { s with grade := { s.grade with outbox := s.grade.outbox.set i o } }

/-- Frames of an outbox with a frame going in (R142): joined to the newest, or in a new place; none when all four places
are taken. -/
def outboxPut (f : ProxyFrame) : List ProxyFrame → Option (List ProxyFrame)
  | [] => some [f]
  | fs@(_ :: _) =>
    match fs.getLast? with
    | none => none
    | some n =>
      if n.tag = f.tag ∧ n.clip = f.clip ∧ n.repeats < 65535 then
        some (fs.dropLast ++ [{ n with repeats := n.repeats + 1 }])
      else if fs.length < 4 then some (fs ++ [f]) else none

/-- A frame goes into the outbox, turned into a held frame; an overflow is PROXY_FULL with detail 2 (R142). A head waits
for the port it was offered to. -/
def putInOutbox (i : SlotId) (p : PortId) (f : ProxyFrame) (s : State) : State :=
  let box := s.grade.outbox.get i
  match outboxPut { f with held := true, black := false, plane := [], repeats := 1 } box.frames with
  | none => raiseProxyFull f.tag f.clip 2 s
  | some fs =>
    if box.frames.isEmpty then joinLine (.outbox i) (s.setOutbox i ⟨fs, some p⟩)
    else s.setOutbox i { box with frames := fs }

/-- A newly produced proxy frame is offered (R139, R142). A READY port that still finishes a warm restart is offered it,
and has no room (log 65). -/
def offerProxy (i : SlotId) (f : ProxyFrame) (s : State) : State :=
  match s.proxyPort with
  | none => s
  | some p =>
    if (s.grade.outbox.get i).frames.isEmpty && s.fitsBehind (.atPort p 1) s.line then enterProxy i p f s
    else putInOutbox i p f s

/-- The latched look of a clip, absent when no record holds the tag (R140, R141). -/
def State.latchedOf (s : State) (tag : Tag) (clip : Nat) : Option Latched :=
  (s.holderOf tag).bind fun i => (s.clip i clip).bind Clip.latched

/-- A held proxy frame for a frame counted pixel-skipped (R141). -/
def produceHeld (i : SlotId) (tag : Tag) (clip : Nat) (counter timestamp : Word) (s : State) : State :=
  if s.cfg.proxyEnable then
    offerProxy i ⟨tag, clip, s.latchedOf tag clip, counter, timestamp, true, false, 1, []⟩ s
  else s

/-- A graded proxy frame for a frame whose grading completed (R140). -/
def produceGraded (e : FrameEntry) (plane : List Byte) (s : State) : State :=
  if s.cfg.proxyEnable then
    offerProxy e.slot ⟨e.tag, e.clip, s.latchedOf e.tag e.clip, e.counter, e.timestamp, false, false, 1,
      plane⟩ s
  else s

/-- The head of an outbox leaves it. -/
def popOutbox (i : SlotId) (s : State) : State :=
  leaveLine (.outbox i) (s.setOutbox i ⟨(s.grade.outbox.get i).frames.tail, none⟩)

/-- The frame at the head of an outbox is offered to the port chosen afresh; with no port READY the outbox empties (R142,
R143). -/
def offerHead (i : SlotId) (s : State) : State :=
  let frames := (s.grade.outbox.get i).frames
  match s.proxyPort with
  | none => s.setOutbox i ⟨[], none⟩
  | some p => if frames.isEmpty then s else waitForRoom (.outbox i) (s.setOutbox i ⟨frames, some p⟩)

/-- The outbox heads waiting for a lost port are dropped (R143), in slot order, in which their next heads begin to wait
(log 47). -/
def dropOutboxHeads (p : PortId) (s : State) : State :=
  SlotId.inOrder.foldl (fun s i =>
    if (s.grade.outbox.get i).port = some p then offerHead i (popOutbox i s) else s) s

/-! ## The commands of this part -/

/-- PROXY_OUTBOX_ENTER (R142): the head of an outbox enters its port's work queue once there is room. -/
def execProxyOutboxEnter (slot : SlotId) (s : State) : Host.Outcome State Fault Refusal :=
  let box := s.grade.outbox.get slot
  match box.frames, box.port with
  | f :: _, some p =>
    if s.mayEnter (.outbox slot) then .next (offerHead slot (enterProxy slot p f (popOutbox slot s)))
    else .next (joinLine (.outbox slot) s)
  | _, _ => .next s

/-- PROXY_FRAME_SERVICE (R88): a proxy frame write in service is written if 12 blocks fit, or refused for space. The test
is made in this one step, with the figures as they then stand (log 63). -/
def execProxyFrameService (port : PortId) (s : State) : Host.Outcome State Fault Refusal :=
  match (s.port port).serving with
  | some (.proxy f) =>
    let fig := (s.port port).fig
    if fig.used + fig.reserved + 12 ≤ fig.capacity then
      .next (s.modPort port fun c => { c with
        fig := { c.fig with used := c.fig.used + 12 }, proxies := c.proxies ++ [proxyImage f] }.endService)
    else
      .next (raiseProxyFull f.tag f.clip (portNumber port) (s.modPort port Channel.endService))
  | _ => .next s

end Sys2Proof.Machine
end

