-- ==== Sys2Proof/Machine/Destinations.lean ====
section
/-! DEFINITION. The commands of the drive ports (chapter 5): attach, detach and errors, block writes, read-backs in both
modes, settle waits. -/

namespace Sys2Proof.Machine

/-! ## Requests that waited for a finishing channel (R182) -/

/-- A request that waited is answered. A record that has left INDEXING meanwhile is not asked for (R29, R58; log 14). -/
def answerRequest (p : PortId) (s : State) : ReservationRequest → State
  | .card i =>
    match s.card i with
    | none => s
    | some c =>
      if c.state = .indexing ∧ p ∈ c.forming then
        formedTest i ((askReservation i p s).modCard i fun c => { c with forming := c.forming.filter fun q => q != p })
      else s
  | .hosted a => answerClaim p a s

/-- A channel whose part of a warm restart is done (R84, R182): every reservation of the dropped runs has returned, and
the queue, the waiting requests, the jobs and the capture are gone. -/
def Channel.restarted (c : Channel) : Channel :=
  { c with
    fig := { c.fig with reserved := 0 }, serving := none, queue := [], readbacks := [], runs := [], jobs := [],
    compare := none, capture := none, finishing := false, requests := [] }

/-- A channel finishes its part of a warm restart, and the requests that waited are answered in their order (R182). Heads
of outboxes that began to wait for the port since the restart keep waiting (log 65). -/
def finishRestart (p : PortId) (s : State) : State :=
  let requests := (s.port p).requests
  requests.foldl (answerRequest p) (s.modPort p Channel.restarted)

/-! ## Loss of a port (R83) -/

/-- The LOCAL target of a record on a lost port, in PENDING or WRITING, becomes FAILED. An ABANDONED record is one of the
card records of R83 (log 15). -/
def failLocal (p : PortId) (s : State) (i : SlotId) : State := endTarget i (.localPort p) .failed false s

/-- A hosted entry on a lost port is settled (R75). -/
def settleHostedOn (p : PortId) (s : State) (place : Nat) : State :=
  match s.hostedAt place with
  | none => s
  | some e => if e.port = p then settleLostPort place s else s

/-- A port lost from READY (R83): its items, jobs, capture, runs and figures go, its targets fail, its hosted entries and
waiting proxies are settled. Several records are settled in slot order (log 59), several entries in the order of their
places in the table (log 43), and the next outbox heads are offered after both (log 47). A channel that was finishing a
warm restart finishes with nothing to return (R182). -/
def losePort (p : PortId) (st : DriveState) (s : State) : State :=
  let old := s.port p
  let s := s.modPort p (Channel.lose st)
  let s := SlotId.inOrder.foldl (failLocal p) s
  let s := (List.range 8).foldl (settleHostedOn p) s
  let s := dropOutboxHeads p s
  if old.finishing then finishRestart p s else s

/-- DRIVE_ATTACH (R82): an ABSENT port becomes READY with the figures the drive reports. -/
def execDriveAttach (port : PortId) (report : DriveReport) (s : State) : Host.Outcome State Fault Refusal :=
  if (s.port port).state = .absent then .next (s.modPort port fun _ => Channel.attach report) else .next s

/-- DRIVE_DETACH (R83): a READY port is lost and becomes ABSENT; a FAILED one becomes ABSENT with no further effect. -/
def execDriveDetach (port : PortId) (s : State) : Host.Outcome State Fault Refusal :=
  match (s.port port).state with
  | .ready => .next (losePort port .absent s)
  | .failed => .next (s.modPort port fun c => { c with state := .absent, media := [], proxies := [] })
  | .absent => .next s

/-- DRIVE_ERROR (R83, R90): the drive does not complete the item in service, and the port becomes FAILED. -/
def execDriveError (port : PortId) (s : State) : Host.Outcome State Fault Refusal :=
  if (s.port port).state = .ready && (s.port port).serving.isSome then .next (losePort port .failed s) else .next s

/-! ## Service of the work queue -/

/-- A COMPLETE or CANCELLED entry is freed with the last item of its run (R78). -/
def freeFinished (run : Nat) (s : State) : State :=
  match s.hosted.findIdx? fun e => e.any fun h => h.run == run with
  | none => s
  | some place => freeIfDone place s

/-- BLOCK_WRITE_DONE (R91): the drive confirms the write, the figures move under R86, and the channel goes on. -/
def execBlockWriteDone (port : PortId) (s : State) : Host.Outcome State Fault Refusal :=
  match (s.port port).serving with
  | some (.write run block _ _ data) =>
    let s := s.modPort port fun c => ({ c with serving := none }.store run block data).countWrite run block
    if (s.port port).finishing then .next (finishRestart port s)
    else .next (freeFinished run (s.modPort port fun c => (c.clearEnded run).refresh))
  | _ => .next s

/-- SETTLE_WAIT_DONE (R98): the settle delay of the drive's class has passed. -/
def execSettleWaitDone (port : PortId) (s : State) : Host.Outcome State Fault Refusal :=
  match (s.port port).serving with
  | some (.settle _ _ _) => .next (s.modPort port Channel.endService)
  | _ => .next s

/-- The settle delay of a class in ms (R98). -/
def settleDelay : DriveClass → Nat
  | .spinning => 50
  | .array => 10
  | .flash => 2

/-- How long the settle wait in service holds the drive, by the port's class; none when no settle wait is in service
(R98). -/
def Channel.settleLength (c : Channel) : Option Nat :=
  match c.serving with
  | some (.settle _ _ _) => c.cls.map settleDelay
  | _ => none

/-- The tag of a run's owner. -/
def RunOwner.tag : RunOwner → Tag
  | .card _ t => t
  | .hosted t => t

/-- The positions at which the read-back CRCs differ from the kept ones (R94), with the kept CRC and the read one. -/
def crcMismatches (kept : List (Nat × Word)) (read : List Word) : List (Nat × Word × Word) :=
  (List.range read.length).filterMap fun j =>
    let r := read.getD j 0
    match kept.find? fun k => k.1 == j with
    | none => none
    | some k => if k.2 = r then none else some (j, k.2, r)

/-- The result of a LOCAL read-back handed to the segment accounting of its record (R104). A record that no longer holds
the tag takes no result (R162). -/
def handLocalResult (p : PortId) (owner : RunOwner) (r : LocalResult) (s : State) : State :=
  match owner with
  | .card i t => if (s.card i).any fun c => c.tag == t then judgeLocal i p r s else s
  | .hosted _ => s

/-- The report of a hosted read-back is formed while the entry is in RECEIVING (R74, R78). -/
def handHostedResult (run segment attempt : Nat) (first : Option Nat) (fold : Word) (s : State) : State :=
  match s.hosted.findIdx? fun e => e.any fun h => h.run == run with
  | none => s
  | some place =>
    match s.hostedAt place with
    | none => s
    | some e =>
      if e.state = .receiving then
        queueReports place (s.setHosted place (some { e with
          owed := formReport segment attempt ⟨.written, first.getD 0xFFFF, fold⟩ e.owed }))
      else s

/-- DIGEST_READBACK_DONE (R94): the blocks as the drive returned them are folded and compared by CRC, a first mismatch
freezes the capture (R97; within the read-back at no earlier moment, log 44), and the result or the report is handed on.
Which of two jobs under one key ends is log 45. The channel takes its next item before the result is judged (log 58). -/
def execDigestReadbackDone (port : PortId) (blocks : List (List Byte)) (s : State) :
    Host.Outcome State Fault Refusal :=
  let c := s.port port
  match c.serving with
  | some (.readback run segment attempt false) =>
    match c.job run segment attempt, c.runs.find? fun r => r.id == run with
    | some job, some r =>
      if blocks.length = job.expected then
        let read := blocks.map blockCrc
        let wrong := crcMismatches job.kept read
        let first := wrong.head?.map Prod.fst
        let capture := wrong.head?.map fun w =>
          Capture.mk r.owner.tag segment (256 * segment + w.1) none w.2.1 w.2.2 (satAdd 0xFFFFFFFF 0 wrong.length)
        let frozen := fun c : Channel => { c with capture := capture }
        match r.owner with
        | .card _ _ =>
          .next (handLocalResult port r.owner
            ⟨segment, attempt, segmentFold read, first, wrong.length, capture, false⟩
            (s.modPort port fun c => ((frozen c).dropJob run segment attempt).endService))
        | .hosted _ =>
          .next (handHostedResult run segment attempt first (segmentFold read)
            (s.modPort port fun c => ((frozen c).dropReadJob run segment attempt).endService))
      else .next s
    | _, _ => .next s
  | _ => .next s

/-- One pair compared (R95, R96): the progress and the capture after it. -/
def comparePair (tag : Tag) (segment : Nat) (h : Hand) (drive : List Byte) (k : ComparePass)
    (cap : Option Capture) : ComparePass × Option Capture :=
  let cmp := byteCompare h.data drive
  let cap := match cap, cmp.2 with
    | none, some (off, a, b) =>
      some ⟨tag, segment, h.index, some off, a.setWidth 32, b.setWidth 32, satAdd 0xFFFFFFFF 0 cmp.1⟩
    | some c, _ => some { c with count := satAdd 0xFFFFFFFF c.count cmp.1 }
    | none, none => none
  (⟨k.position + 1, foldIn k.fold k.position (blockCrc drive), k.diffs + cmp.1,
    if k.first.isNone && 0 < cmp.1 then some k.position else k.first⟩, cap)

/-- FULL_COMPARE_PAIR (R95): the full-mode read-back in service compares the block in hand of its compare re-read with
the block the drive returned; after the last pair the result is handed on and the re-read ends. The channel takes its
next item, and the slot its next read, before the result is judged (log 58). -/
def execFullComparePair (port : PortId) (drive : List Byte) (s : State) : Host.Outcome State Fault Refusal :=
  let c := s.port port
  match c.serving, c.compare with
  | some (.readback run segment attempt true), some k =>
    match c.runs.find? (fun r => r.id == run), c.job run segment attempt with
    | some r, some job =>
      match r.owner with
      | .hosted _ => .next s
      | .card i tag =>
        match (s.slot i).running, (s.slot i).progress.bind ReadProgress.hand with
        | some (.compare seg p run' a), some h =>
          if seg = segment ∧ p = port ∧ run' = run ∧ a = attempt then
            let out := comparePair tag segment h drive k c.capture
            let s := s.modPort port fun c => { c with compare := some out.1, capture := out.2 }
            if out.1.position < job.expected then .next (toBlock i (h.index + 1) s)
            else
              let s := s.modPort port fun c => (c.dropJob run segment attempt).endService
              let s := endItem i s
              .next (handLocalResult port r.owner
                ⟨segment, attempt, out.1.fold, out.1.first, out.1.diffs, out.2, true⟩ s)
          else .next s
        | _, _ => .next s
    | _, _ => .next s
  | _, _ => .next s

end Sys2Proof.Machine
end

