-- ==== Sys2Proof/Machine/FaultMonitor.lean ====
section
/-! DEFINITION. The Fault Monitor's judgement of frames (chapter 9): cadence (R146 to R148), the counts of frames and
pending positions (R149), the pixel checks (R150 to R154), clip completion (R155). -/

namespace Sys2Proof.Machine

/-! ## Cadence -/

/-- A clip fault at a frame position. -/
def raiseClip (i : SlotId) (n : Nat) (k : FaultKind) (position : Nat) (detail : Word) (s : State) : State :=
  raiseFault (.clip i n) { kind := k, position := position, detail := detail } s

/-- The timestamp expected of a frame k frames after the base, for M frames in N seconds: exact, floored once, then taken
modulo 2^32 (R148). -/
def expectedTime (t0 : Word) (k m n : Nat) : Word := BitVec.ofNat 32 (t0.toNat + k * 90000 * n / m)

/-- The timing test (R148). -/
def timingTest (i : SlotId) (n position : Nat) (c : Clip) (k : Cadence) (counter timestamp : Word) (s : State) :
    State :=
  let deviation := timestamp - expectedTime k.t0 (counter - k.c0).toNat c.rateM c.rateN
  if s.cfg.cadenceTolerance < deviation.toInt.natAbs then raiseClip i n .timingSlip position deviation s else s

/-- The cadence check of one header (R146, R147). position is the clip's frames-seen count before the header. -/
def cadenceCheck (i : SlotId) (n position : Nat) (counter timestamp : Word) (s : State) : State :=
  match s.clip i n with
  | none => s
  | some c =>
    match c.cadence with
    | none => s.modClip i n fun c => { c with cadence := some ⟨counter, timestamp, counter⟩ }
    | some k =>
      let d := counter - k.p
      if d.toInt ≤ 0 then
        (raiseClip i n .counterRepeat position d s).modClip i n fun c =>
          { c with cadence := some ⟨counter, timestamp, counter⟩ }
      else
        let s := if 2 ≤ d.toInt then raiseClip i n .droppedFrames position (d - 1) s else s
        (timingTest i n position c k counter timestamp s).modClip i n fun c =>
          { c with cadence := some { k with p := counter } }

/-! ## Completion -/

/-- A clip with its clip end handed and no pending position completes, once, and any non-zero count brings its
FAULT_SUMMARY (R155, R165). -/
def completionTest (i : SlotId) (n : Nat) (s : State) : State :=
  match s.clip i n with
  | none => s
  | some c =>
    if c.clipEnd && !c.complete && c.pendingPos.isEmpty then
      let s := s.modClip i n fun c => { c with complete := true }
      if c.log.counts.any fun x => x != 0 then publishSummary (.clip i n) 1 s else s
    else s

/-- The clip end of a clip (R39, R155). -/
def handClipEnd (i : SlotId) (n : Nat) (s : State) : State :=
  completionTest i n (s.modClip i n fun c => { c with clipEnd := true })

/-! ## Pixels -/

/-- The 16-bit samples of a byte string, least significant byte first (R133). -/
def samplesOf : List Byte → List Nat
  | lo :: hi :: rest => (lo.toNat + 256 * hi.toNat) :: samplesOf rest
  | _ => []

/-- One pixel: the codes of its three channels. -/
structure Pixel where
  r : Nat
  g : Nat
  b : Nat
  deriving DecidableEq, Repr

/-- Codes in threes: R, G, B. -/
def pixelsFrom : List Nat → List Pixel
  | r :: g :: b :: rest => ⟨r, g, b⟩ :: pixelsFrom rest
  | _ => []

/-- The 129,600 source pixels of a plane: the low 12 bits of each sample (R133). -/
def sourcePixels (plane : List Byte) : List Pixel :=
  pixelsFrom ((samplesOf (planeBytes plane)).map fun v => v % 4096)

/-- The luma of a pixel (R136, R152). -/
def Pixel.luma (p : Pixel) : Nat := (1254 * p.r + 2462 * p.g + 380 * p.b + 2048) / 4096

/-- The pixels of a frame: 480 × 270. -/
def framePixels : Nat := 129600

/-- The pixels with any channel at or above a level (R151). -/
def clippedPixels (level : Nat) (ps : List Pixel) : Nat :=
  ps.countP fun p => level ≤ p.r || level ≤ p.g || level ≤ p.b

/-- The mean source luma, floored (R152). -/
def meanLuma (ps : List Pixel) : Nat := (ps.map Pixel.luma).sum / framePixels

/-- EXPOSURE_CLIP (R151). -/
def exposureCheck (i : SlotId) (n position : Nat) (ps : List Pixel) (s : State) : State :=
  let count := clippedPixels s.cfg.clipLevel ps
  if s.cfg.exposurePerMille * framePixels < count * 1000 then
    raiseClip i n .exposureClip position (BitVec.ofNat 32 count) s
  else s

/-- BLACK_FRAME (R152). -/
def blackCheck (i : SlotId) (n position : Nat) (ps : List Pixel) (s : State) : State :=
  if meanLuma ps < s.cfg.blackLevel then
    raiseClip i n .blackFrame position (BitVec.ofNat 32 (meanLuma ps)) s
  else s

/-- The previous digest is that of the frame just before, and equal (R153). -/
def frozenWith (prev : Option (Word × Nat)) (digest : Word) (position : Nat) : Bool :=
  match prev with
  | none => false
  | some d => d.2 + 1 == position && d.1 == digest

/-- FROZEN_FRAME, after which the previous digest is this frame's (R153). -/
def frozenCheck (i : SlotId) (n position : Nat) (digest : Word) (s : State) : State :=
  let frozen := ((s.clip i n).map fun c => frozenWith c.prevDigest digest position).getD false
  let s := if frozen then raiseClip i n .frozenFrame position digest s else s
  s.modClip i n fun c => { c with prevDigest := some (digest, position) }

/-- LOOK_CLIP (R154). -/
def lookClipCheck (i : SlotId) (n position clamped : Nat) (s : State) : State :=
  if s.cfg.lookClipPerMille * framePixels < clamped * 1000 then
    raiseClip i n .lookClip position (BitVec.ofNat 32 clamped) s
  else s

/-- A graded frame taken by the Fault Monitor (R150): the oldest pending position is the frame's; the four checks in
order; the pixel-checked count; the frame is settled. Nothing is counted when no record holds the tag. -/
def checkFrame (tag : Tag) (n : Nat) (plane : List Byte) (clamped : Nat) (s : State) : State :=
  match s.holderOf tag with
  | none => s
  | some i =>
    match s.clip i n with
    | none => s
    | some c =>
      let position := c.pendingPos.headD 0
      let ps := sourcePixels plane
      let s := s.modClip i n fun c => { c with pendingPos := c.pendingPos.tail }
      let s := exposureCheck i n position ps s
      let s := blackCheck i n position ps s
      let s := frozenCheck i n position (planeDigest plane) s
      let s := lookClipCheck i n position clamped s
      completionTest i n (s.modClip i n fun c => { c with checked := c.checked + 1 })

/-! ## Headers -/

/-- A good header of a clip (R37, R146): cadence, frames seen, and the frame's place in the frame queue or its
skip. The faults of the cadence check come before the PROXY_FULL of a skipped frame's held proxy (log 60). -/
def takeHeader (i : SlotId) (tag : Tag) (n : Nat) (counter timestamp : Word) (s : State) : State :=
  match s.clip i n with
  | none => s
  | some c =>
    let queued := decide (s.grade.queue.length < 8)
    let s := s.modClip i n fun c => { c with
      seen := c.seen + 1
      pendingPos := if queued then c.pendingPos ++ [c.seen] else c.pendingPos
      skipped := if queued then c.skipped else c.skipped + 1 }
    let s := cadenceCheck i n c.seen counter timestamp s
    if queued then
      { s with grade := { s.grade with
          queue := s.grade.queue ++ [⟨i, tag, n, counter, timestamp, [], .filling⟩] } }
    else produceHeld i tag n counter timestamp (completionTest i n s)

/-- The FILLING entry of a slot released at a removal: its frame is counted pixel-skipped, and a held proxy frame is
produced (R22, R141, R149). -/
def releaseFilling (i : SlotId) (s : State) : State :=
  match s.grade.queue.find? fun e => e.slot == i && e.state == FrameState.filling with
  | none => s
  | some e =>
    let s := { s with grade := { s.grade with
      queue := s.grade.queue.filter fun e => !(e.slot == i && e.state == FrameState.filling) } }
    let s := s.modClip i e.clip fun c => { c with skipped := c.skipped + 1, pendingPos := c.pendingPos.dropLast }
    produceHeld i e.tag e.clip e.counter e.timestamp (completionTest i e.clip s)

end Sys2Proof.Machine
end

