-- ==== Sys2Proof/Machine/Looks.lean ====
section
/-! DEFINITION. The Look Table (chapter 7): version comparison, acceptance, assignment, the latch and the reload. The
commands LOOK_PUBLISH and LOOK_ASSIGN take the head of the control receive queue (R10). -/

namespace Sys2Proof.Machine

/-! ## Taking the head of the control receive queue (R10) -/

/-- The head of the control receive queue when it is of a kind. -/
def State.headOfKind (s : State) (k : Kind) : Option Message :=
  s.trunk.recvQ.head?.filter fun m => m.code == k.code

/-- The head has been taken by its owner and is removed (R10). -/
def dropReceived (s : State) : State := s.modTrunk fun t => { t with recvQ := t.recvQ.tail }

/-- The message at the head, when it is of a kind, is removed and taken by its owner. The event does not arise
otherwise (log 1). -/
def takeMessage (k : Kind) (act : Message → State → State) (s : State) : State :=
  match s.headOfKind k with
  | none => s
  | some m => act m (dropReceived s)

/-- The reasons of a REFUSAL (R169). -/
inductive RefusalReason where
  | unknownCard | unknownClip | badSlot | slotFixed | wrongState | malformed
  deriving DecidableEq, Repr

/-- The code of a reason. -/
def RefusalReason.code : RefusalReason → Nat
  | .unknownCard => 1 | .unknownClip => 2 | .badSlot => 3 | .slotFixed => 4 | .wrongState => 5
  | .malformed => 6

/-- The body of a REFUSAL: kind code and reason, then the request's first body word, or 0 when the body is empty or
malformed (R169, log 19). -/
def refusalBody (m : Message) (r : RefusalReason) : List Byte :=
  [m.code, byteOf r.code, 0, 0] ++ (if r = .malformed then [0, 0, 0, 0] else padTo 4 m.body)

/-- A request that a rule refuses: answered when it was addressed to this station, ignored when broadcast (R169). -/
def refuse (m : Message) (r : RefusalReason) (s : State) : State :=
  if m.target = 0 then s else handControl .refusal m.source (refusalBody m r) s

/-! ## The table -/

/-- The record of a look slot; none is EMPTY. -/
def State.look (s : State) (slot : Nat) : Option LookRecord := s.looks.getD slot none

/-- A version is newer than another when their difference modulo 65,536 lies in 1 to 32,767 (R119). -/
def newerVersion (w v : Half) : Bool := 1 ≤ (w - v).toNat && (w - v).toNat ≤ 32767

/-- The clip is to be marked when a version is accepted into a slot (R121). -/
def Clip.staleAfter (c : Clip) (slot : Nat) (version : Half) : Bool :=
  match c.latched with
  | none => false
  | some l => (l.slot == slot && l.version != version) || (c.assigned == slot && l.slot != slot)

/-- Acceptance into a slot: the record is replaced, and clips graded otherwise are marked regrade-due, in every card
record (R121). -/
def acceptLook (slot : Nat) (r : LookRecord) (s : State) : State :=
  let mark := fun c : Clip => if c.staleAfter slot r.version then { c with regradeDue := true } else c
  let marked := fun c : CardRecord => { c with clips := c.clips.map mark }
  { s with
    looks := s.looks.set slot (some r)
    cards := ⟨s.cards.s0.map marked, s.cards.s1.map marked, s.cards.s2.map marked, s.cards.s3.map marked⟩ }

/-- A publication taken (R118). -/
def takePublication (m : Message) (s : State) : State :=
  let slot := byteAt m.body 0
  let r := readLook m.body
  if 15 < slot then refuse m .badSlot s
  else if slot = 0 then refuse m .slotFixed s
  else
    match s.look slot with
    | none => acceptLook slot r s
    | some old => if newerVersion r.version old.version then acceptLook slot r s else s

/-- LOOK_PUBLISH (R118 to R121). -/
def execLookPublish (s : State) : Host.Outcome State Fault Refusal :=
  .next (takeMessage .lookPublish takePublication s)

/-- A clip assigned to a slot; a clip latched on another slot is marked regrade-due (R123). So is one that fell back to
slot 0 and is assigned the slot it already holds (log 46). -/
def Clip.assign (slot : Nat) (c : Clip) : Clip :=
  { c with assigned := slot, regradeDue := c.regradeDue || c.latched.any fun l => l.slot != slot }

/-- The clips first to last of a record assigned; a last clip at or above the number of clips is taken as the last
one (R123). -/
def CardRecord.assignClips (first last slot : Nat) (c : CardRecord) : CardRecord :=
  { c with clips := c.clips.mapIdx fun n k => if first ≤ n ∧ n ≤ last then k.assign slot else k }

/-- An assignment taken (R122). -/
def takeAssignment (m : Message) (s : State) : State :=
  let slot := byteAt m.body 8
  let first := halfAt m.body 4
  let last := halfAt m.body 6
  if 15 < slot then refuse m .badSlot s
  else
    match s.holderOf (tagAt m.body) with
    | none => refuse m .unknownCard s
    | some i =>
      let n := ((s.card i).map fun c => c.clips.length).getD 0
      if n ≤ first ∨ last < first then refuse m .unknownClip s
      else s.modCard i (CardRecord.assignClips first last slot)

/-- LOOK_ASSIGN (R122, R123). -/
def execLookAssign (s : State) : Host.Outcome State Fault Refusal :=
  .next (takeMessage .lookAssign takeAssignment s)

/-! ## Working looks (R125 to R128) -/

/-- The working look of a card slot loaded for a clip, which becomes its owner. -/
def State.loadWorking (s : State) (i : SlotId) (v : LookValues) (owner : Tag × Nat) : State :=
  { s with working := s.working.set i ⟨v, some owner⟩ }

/-- The latch (R126): the assigned slot if LOADED, otherwise slot 0 with LOOK_MISSING. slot is the card slot of the
entry, i the slot whose record holds the clip. -/
def latchClip (slot i : SlotId) (tag : Tag) (n : Nat) (c : Clip) (s : State) : State :=
  match s.look c.assigned with
  | some r =>
    (s.loadWorking slot r.values (tag, n)).modClip i n fun c =>
      { c with latched := some ⟨c.assigned, r.version, r.name⟩ }
  | none =>
    let s := (s.loadWorking slot LookValues.neutral (tag, n)).modClip i n fun c =>
      { c with latched := some ⟨0, 0, neutralName⟩ }
    raiseFault (.clip i n) { kind := .lookMissing, detail := BitVec.ofNat 32 c.assigned } s

/-- How a take's look is settled (R125). -/
inductive LookSettled where
  | supplied (s : State)
  | replaced
  | noRecord

/-- The working look of the entry's card slot settled by the entry's clip (R125 to R128). -/
def settleLook (e : FrameEntry) (s : State) : LookSettled :=
  match s.holderOf e.tag with
  | none => .noRecord
  | some i =>
    match s.clip i e.clip with
    | none => .noRecord
    | some c =>
      match c.latched with
      | none => .supplied (latchClip e.slot i e.tag e.clip c s)
      | some l =>
        if (s.working.get e.slot).owner = some (e.tag, e.clip) then .supplied s
        else
          match s.look l.slot with
          | none => .replaced
          | some r =>
            if r.version = l.version then .supplied (s.loadWorking e.slot r.values (e.tag, e.clip))
            else .replaced

end Sys2Proof.Machine
end

