-- ==== Sys2Proof/Machine/Grading.lean ====
section
/-! DEFINITION. The Grade Pipeline (chapter 8): the three stages of R133 to R136, the take (R131) and the completion
(R132). All division is with floor toward minus infinity; the divisors are positive. -/

namespace Sys2Proof.Machine

/-! ## The arithmetic -/

/-- Stage 1 before its clamp: floor((v × slope + 512) / 1024) + offset (R134). -/
def stage1 (slope : Nat) (offset : Int) (v : Nat) : Int := ((v * slope + 512) / 1024 : Nat) + offset

/-- A code within 0 to 4,095. -/
def inCodes (a : Int) : Bool := 0 ≤ a && a ≤ 4095

/-- A value clamped to a code. -/
def toCode (a : Int) : Nat := (clampInt 0 4095 a).toNat

/-- Stage 2: the tone table between two entries (R135). -/
def stage2 (tone : List Nat) (a : Nat) : Nat :=
  let i := a / 128
  let f := a - 128 * i
  let t0 : Int := tone.getD i 0
  let t1 : Int := tone.getD (i + 1) 0
  (t0 + ((t1 - t0) * f + 64) / 128).toNat

/-- Stage 3 before its clamp: the saturation about the luma (R136). -/
def stage3 (saturation luma b : Nat) : Int := luma + (((b : Int) - luma) * saturation + 512) / 1024

/-- A pixel graded, and whether stage 1 or stage 3 clamped any of its channels (R133 to R136). -/
def gradePixel (k : LookValues) (p : Pixel) : Pixel × Bool :=
  let ar := stage1 k.slopeR k.offsetR p.r
  let ag := stage1 k.slopeG k.offsetG p.g
  let ab := stage1 k.slopeB k.offsetB p.b
  let m : Pixel := ⟨stage2 k.tone (toCode ar), stage2 k.tone (toCode ag), stage2 k.tone (toCode ab)⟩
  let cr := stage3 k.saturation m.luma m.r
  let cg := stage3 k.saturation m.luma m.g
  let cb := stage3 k.saturation m.luma m.b
  (⟨toCode cr, toCode cg, toCode cb⟩,
    !(inCodes ar && inCodes ag && inCodes ab && inCodes cr && inCodes cg && inCodes cb))

/-- The bytes of a graded plane: each code in a 16-bit sample, R, G, B (R133). -/
def planeOf (ps : List Pixel) : List Byte := ps.flatMap fun p => le16 p.r ++ le16 p.g ++ le16 p.b

/-- A source plane graded: the graded plane and the look-clip count (R132, R136). -/
def gradePlane (k : LookValues) (plane : List Byte) : List Byte × Nat :=
  let out := (sourcePixels plane).map (gradePixel k)
  (planeOf (out.map Prod.fst), out.countP Prod.snd)

/-! ## The take -/

/-- A frame-queue entry is being graded. -/
def FrameEntry.isGrading (e : FrameEntry) : Bool :=
  match e.state with
  | .grading _ => true
  | _ => false

/-- The first COMPLETE entry replaced by what a function makes of it: kept with changes, or freed. -/
def replaceComplete (f : FrameEntry → Option FrameEntry) : List FrameEntry → List FrameEntry
  | [] => []
  | e :: es => if e.state = .complete then (f e).toList ++ es else e :: replaceComplete f es

/-- The frame queue with its earliest COMPLETE entry replaced. -/
def State.replaceTaken (s : State) (f : FrameEntry → Option FrameEntry) : State :=
  { s with grade := { s.grade with queue := replaceComplete f s.grade.queue } }

/-- A take that finds the latched version replaced: the entry is freed, the frame is counted pixel-skipped and settled,
and then a held proxy frame is produced (R131, R132, R149). -/
def skipTaken (e : FrameEntry) (s : State) : State :=
  let s := s.replaceTaken fun _ => none
  match s.holderOf e.tag with
  | none => s
  | some i =>
    let s := s.modClip i e.clip fun c => { c with skipped := c.skipped + 1, pendingPos := c.pendingPos.tail }
    produceHeld e.slot e.tag e.clip e.counter e.timestamp (completionTest i e.clip s)

/-- GRADE_TAKE (R131): with no frame grading, the COMPLETE entry reserved earliest is taken. -/
def execGradeTake (s : State) : Host.Outcome State Fault Refusal :=
  if s.grade.queue.any FrameEntry.isGrading then .next s
  else
    match s.grade.queue.find? fun e => e.state == FrameState.complete with
    | none => .next s
    | some e =>
      match settleLook e s with
      | .supplied t =>
        .next (t.replaceTaken fun e => some { e with state := .grading (t.working.get e.slot).values })
      | .replaced => .next (skipTaken e s)
      | .noRecord => .next (s.replaceTaken fun _ => none)

/-! ## The completion -/

/-- GRADE_COMPLETE (R132): the Fault Monitor takes the frame, the entry is freed, the monitor shows it if its card slot
is the monitored one, and a proxy frame is produced. -/
def execGradeComplete (s : State) : Host.Outcome State Fault Refusal :=
  match s.grade.queue.find? FrameEntry.isGrading with
  | none => .next s
  | some e =>
    match e.state with
    | .grading look =>
      let out := gradePlane look e.plane
      let s := checkFrame e.tag e.clip e.plane out.2 s
      let s := { s with grade := { s.grade with
        queue := s.grade.queue.filter fun e => !e.isGrading
        shown := if e.slot = s.grade.monitored then out.1 else s.grade.shown } }
      .next (produceGraded e out.1 s)
    | _ => .next s

end Sys2Proof.Machine
end

