-- ==== Sys2Proof/Machine/Slots.lean ====
section
/-! DEFINITION. The commands of the card slots (chapters 2 and 3): insertion, the index, reading and delivering blocks,
the frame parser, removal, the slot lamps. -/

namespace Sys2Proof.Machine

/-! ## Mounting (R21, R40, R41) -/

/-- The serials of the tags that the records of other slots hold. -/
def State.otherSerials (s : State) (i : SlotId) : List Half :=
  (SlotId.inOrder.filter fun j => j != i).filterMap fun j => (s.card j).map fun c => c.tag.serial

/-- The counter advanced past the serials in use; at most three others are held (R40). -/
def freshSerial (held : List Half) : Nat → Half → Half
  | 0, v => v
  | n + 1, v => if held.contains v then freshSerial held n (v + 1) else v

/-- The record at a card-insert event (R41). -/
def freshRecord (tag : Tag) (k : Nat) : CardRecord :=
  { tag := tag, roll := List.replicate 8 0x20, state := .indexing, k := k, round := 1, blockCount := 0,
    segmentCount := 0, sourceErrors := 0, hold := false, waitingForRun := false, targets := [],
    excluded := [], rows := [], resend := [], clips := [], log := .empty 7, noIndex := false,
    clipsTruncated := false, retryTimer := none, window := .none, forming := [], lampLit := true }

/-- The reported size as it is taken (R21). -/
def takenSize (size : Nat) : Nat := clampNat 1 16777216 size

/-- The reserved runs of a record's LOCAL targets end their hold (R58, R87). -/
def endLocalRuns (i : SlotId) (s : State) : State :=
  match s.card i with
  | none => s
  | some c => c.targets.foldl (fun s t =>
      match t.key, t.run with
      | .localPort p, some run => s.modPort p (Channel.endRun run false)
      | _, _ => s) s

/-- The card-insert event (R21): a new tag, a record reset, a slot in MOUNTING whose read of block 0 begins. -/
def mountCard (i : SlotId) (size : Nat) (s : State) : State :=
  let s := endLocalRuns i s
  let serial := freshSerial (s.otherSerials i) 3 s.serial
  let s := { s with serial := serial + 1 }
  let s := s.modSlot i fun _ => { SlotReader.start with state := .mounting, size := takenSize size }
  s.setCard i (some (freshRecord ⟨s.own, serial⟩ s.cfg.k))

/-- CARD_INSERT (R21): a card is seated in an EMPTY slot. During the load it waits, seated, for the load's end (R176). -/
def execCardInsert (slot : SlotId) (size : Nat) (s : State) : Host.Outcome State Fault Refusal :=
  if (s.slot slot).state = .empty ∧ s.seated.get slot = none then
    let s := { s with seated := s.seated.set slot (some size) }
    if s.loading then .next s else .next (mountCard slot size s)
  else .next s

/-! ## The index (R25 to R28) -/

/-- Block 0 carries the signature. -/
def hasSignature (d : List Byte) : Bool :=
  byteAt d 0 == 0xC7 && byteAt d 1 == 0x1D && byteAt d 2 == 0x5E && byteAt d 3 == 0xA2

/-- The clip count read from the index. -/
def clipCountOf (d : List Byte) : Nat := halfAt d 12

/-- A clip record as its index entry begins it, with the clamps of R26 (R27). -/
def indexClip (d : List Byte) (look e : Nat) : Clip :=
  let o := 32 + 32 * e
  { first := wordAt d o, count := wordAt d (o + 4), frames := min 1048575 (wordAt d (o + 8)),
    rateM := clampNat 1 240000 (wordAt d (o + 12)), rateN := max 1 (halfAt d (o + 16)),
    timecode := (List.range 4).map fun j => d.getD (o + 18 + j) 0,
    flags := BitVec.ofNat 16 (halfAt d (o + 22)),
    assigned := look, latched := none, regradeDue := false, seen := 0, checked := 0, skipped := 0,
    cadence := none, prevDigest := none, pendingPos := [], clipEnd := false, complete := false,
    log := .empty 11 }

/-- The used range: the largest end among the entries read, no larger than the reported size and no smaller than 1
(R26). -/
def usedRange (size : Nat) (entries : List Clip) : Nat :=
  max 1 (min size ((entries.map fun c => c.first + c.count).foldl max 0))

/-- The index results written into the record, and the slot READY (R28, R41). -/
def writeIndex (i : SlotId) (roll : List Byte) (blocks : Nat) (clips : List Clip) (noIndex truncated : Bool)
    (s : State) : State :=
  let s := s.modCard i fun c => { c with
    roll := roll, blockCount := blocks, segmentCount := segmentsOf blocks,
    rows := newRows blocks (segmentsOf blocks), clips := clips, noIndex := noIndex,
    clipsTruncated := truncated }
  s.modSlot i fun r => { r with state := .ready, tries := 0 }

/-- The index taken from block 0, or the mount taken as opaque when the block is unreadable or has no signature (R25 to
R28); then the local targets are formed (R45). -/
def takeIndex (i : SlotId) (data : Option (List Byte)) (s : State) : State :=
  let size := (s.slot i).size
  let d := (data.map blockBytes).getD []
  if hasSignature d then
    let n := min (clipCountOf d) 2047
    let entries := (List.range n).map (indexClip d s.cfg.defaultLook)
    let truncated := decide (512 < clipCountOf d)
    let s := writeIndex i (slice d 4 8) (usedRange size entries) (entries.take 512) false truncated s
    let s := if truncated then
        raiseFault (.card i) { kind := .clipsTruncated, detail := BitVec.ofNat 32 (clipCountOf d) } s
      else s
    formTargets i s
  else
    let s := writeIndex i (List.replicate 8 0x20) size [] true false s
    formTargets i (raiseFault (.card i) { kind := .noIndex } s)

/-! ## Reading (R23, R24) -/

/-- A block lies in a clip's range. -/
def Clip.contains (k : Clip) (b : Nat) : Bool := k.first ≤ b && b < k.first + k.count

/-- The lowest-numbered tracked clip whose range contains a block (R36). -/
def CardRecord.clipAt (c : CardRecord) (b : Nat) : Option Nat := c.clips.findIdx? fun k => k.contains b

/-- The third failed try of a block (R23, R24): counted, recorded against its clip or the card, and entered in the
bad-block set while that holds fewer than 64. -/
def sourceError (i : SlotId) (b : Nat) (s : State) : State :=
  let s := s.modCard i fun c => { c with sourceErrors := satAdd 65535 c.sourceErrors 1 }
  let detail := BitVec.ofNat 32 b
  let s := match (s.card i).bind fun c => c.clipAt b with
    | some n => raiseFault (.clip i n) { kind := .clipReadError, position := b, detail := detail } s
    | none => raiseFault (.card i) { kind := .cardReadError, position := b, detail := detail } s
  s.modSlot i fun r => { r with bad := if r.bad.length < 64 then insertSorted b r.bad else r.bad }

/-- BLOCK_READ_TRY_END (R23): one try at the block being read ends. -/
def execBlockReadTryEnd (slot : SlotId) (data : Option (List Byte)) (s : State) :
    Host.Outcome State Fault Refusal :=
  let r := s.slot slot
  let retried := s.modSlot slot fun r => { r with tries := r.tries + 1 }
  match r.state with
  | .mounting =>
    match data with
    | some _ => .next (takeIndex slot data s)
    | none => if r.tries < 2 then .next retried else .next (takeIndex slot none (sourceError slot 0 s))
  | .reading =>
    match r.progress with
    | none => .next s
    | some p =>
      if p.hand.isSome then .next s
      else
        match data with
        | some d => .next (takeInHand slot ⟨p.next, d, blockCrc d, false⟩ s)
        | none =>
          if r.tries < 2 then .next retried
          else .next (takeInHand slot (badHand p.next) (sourceError slot p.next s))
  | .empty | .ready => .next s

/-! ## The frame parser (R36 to R39) -/

/-- A block's first 20 bytes pass every test of a frame header of a clip (R36). -/
def goodHeader (k : Clip) (blocks : Nat) (h : Hand) : Bool :=
  let d := h.data
  let len := halfAt d 12
  byteAt d 0 == 0x3B && byteAt d 1 == 0x91 && byteAt d 2 == 0x6C && byteAt d 3 == 0xE4
    && 1 ≤ len && 20 ≤ wordAt d 16 && wordAt d 16 + 777600 ≤ len * 65536
    && h.index + len ≤ k.first + k.count && h.index + len ≤ blocks

/-- The bytes of a block that belong to the plane of an open unit (R38). -/
def planePart (u : OpenUnit) (h : Hand) : List Byte :=
  let base := 65536 * (h.index - u.start)
  let lo := max u.planeOffset base
  let hi := min (u.planeOffset + 777600) (base + 65536)
  slice (blockBytes h.data) (lo - base) (hi - lo)

/-- A block of an open unit passes: its plane bytes go to the entry being filled, which is COMPLETE with the last of
them (R38), and the unit ends with its last block. -/
def passUnit (i : SlotId) (u : OpenUnit) (h : Hand) (s : State) : State :=
  let done := decide (u.planeOffset + 777600 ≤ 65536 * (h.index - u.start) + 65536)
  let fill := fun e : FrameEntry =>
    if e.slot == i && e.state == FrameState.filling then
      { e with plane := e.plane ++ planePart u h, state := if done then .complete else .filling }
    else e
  let s := if u.filling then { s with grade := { s.grade with queue := s.grade.queue.map fill } } else s
  s.modSlot i fun r => { r with parser := { r.parser with
    unit := if h.index + 1 = u.start + u.length then none else some { u with filling := u.filling && !done } } }

/-- A candidate header of a clip (R36): a good one opens a unit (R37); any other is FRAME_UNREADABLE. -/
def parseHeader (i : SlotId) (n : Nat) (k : Clip) (c : CardRecord) (h : Hand) (s : State) : State :=
  let s := s.modSlot i fun r => { r with parser := { r.parser with entered := insertSorted n r.parser.entered } }
  if goodHeader k c.blockCount h then
    let u : OpenUnit := ⟨n, h.index, halfAt h.data 12, wordAt h.data 16, decide (s.grade.queue.length < 8)⟩
    passUnit i u h
      (takeHeader i c.tag n (BitVec.ofNat 32 (wordAt h.data 4)) (BitVec.ofNat 32 (wordAt h.data 8)) s)
  else
    raiseFault (.clip i n)
      { kind := .frameUnreadable, position := h.index, detail := BitVec.ofNat 32 h.index } s

/-- The block is the last of a clip's range that lies below E (R39). -/
def Clip.endsAt (k : Clip) (blocks b : Nat) : Bool := 0 < k.count && min (k.first + k.count) blocks == b + 1

/-- The clip ends handed at a block, in increasing clip number, once for each clip entered (R39). -/
def handClipEnds (i : SlotId) (b : Nat) (s : State) : State :=
  match s.card i with
  | none => s
  | some c =>
    let due := (s.slot i).parser.entered.filter fun n =>
      (c.clips[n]?).any fun k => k.endsAt c.blockCount b && !k.clipEnd
    due.foldl (fun s n => handClipEnd i n s) s

/-- One block of the first pass through the parser (R36): inside a unit it belongs to the unit; outside, to the lowest
clip that contains it; block 0 belongs to no clip. -/
def parseBlock (i : SlotId) (h : Hand) (s : State) : State :=
  match s.card i with
  | none => s
  | some c =>
    let s := match (s.slot i).parser.unit with
      | some u => passUnit i u h s
      | none =>
        if h.index = 0 then s
        else
          match c.clipAt h.index with
          | none => s
          | some n =>
            match c.clips[n]? with
            | none => s
            | some k => parseHeader i n k c h s
    handClipEnds i h.index s

/-! ## Delivering a block (R30 to R34) -/

/-- The block is the last of its segment. -/
def lastOfSegment (blocks b : Nat) : Bool := b + 1 == min (256 * (b / 256 + 1)) blocks

/-- The segment's source fold is entered in an empty row (R102). -/
def enterFold (i : SlotId) (seg : Nat) (fold : Word) (s : State) : State :=
  s.modCard i fun c => { c with rows := c.rows.modify seg fun w =>
    if w.fold.isNone then { w with fold := some fold } else w }

/-- The block write of a LOCAL target enters its port's queue, and its CRC is kept in the segment job (R93). -/
def deliverWrite (i : SlotId) (h : Hand) (attempt : Nat) (s : State) (p : PortId) : State :=
  match (s.card i).bind fun c => (c.target (.localPort p)).bind fun t => t.run.map fun r => (c, r) with
  | none => s
  | some (c, run) =>
    let seg := h.index / 256
    s.modPort p fun ch =>
      (ch.keepCrc run seg attempt (segmentSize c.blockCount c.segmentCount seg) (h.index % 256) h.crc).bring
        (.write run h.index attempt h.crc h.data)

/-- The last write of a LOCAL target's segment has entered: the channel brings a digest read-back, or asks the slot for a
compare re-read in full mode (R93). -/
def bringLocalReadback (i : SlotId) (seg attempt : Nat) (s : State) (p : PortId) : State :=
  match (s.card i).bind fun c => (c.target (.localPort p)).bind fun t => t.run with
  | none => s
  | some run =>
    if s.cfg.fullVerify then requestRead i (.compare seg p run attempt) s
    else s.modPort p (Channel.bringReadback (.readback run seg attempt false))

/-- The block goes to staging as one BLOCK, broadcast by a pass and addressed by a resend (R30, R33, R34). While SILENT
it is accepted and discarded (R9, R106). -/
def stageBlock (i : SlotId) (item : ReadItem) (c : CardRecord) (h : Hand) (s : State) : State :=
  let b : StagedBlock :=
    { owner := some i
      target := match item with
        | .resend _ (.peer n) _ _ => n
        | _ => 0
      tag := c.tag, index := h.index, attempt := item.attempt, lastOfSegment := lastOfSegment c.blockCount h.index,
      bad := h.bad, crc := h.crc, data := h.data }
  if s.mode = .silent then startReportTimers b s
  else s.modTrunk fun t => { t with staging := t.staging ++ [b] }

/-- The block in hand is delivered to all its receivers at once, and the read goes on (R30, R31). When it ends a segment
for both LOCAL targets in full verify mode, their compare re-reads are requested in target-list order; when it is the
only block of its segment, the re-read of the next resend head is requested before the compare re-read (log 39). -/
def deliverBlock (i : SlotId) (item : ReadItem) (p : ReadProgress) (c : CardRecord) (h : Hand) (s : State) :
    State :=
  let seg := h.index / 256
  let ports := c.copyPorts item
  let peers := c.copyPeers item
  let last := lastOfSegment c.blockCount h.index
  let fold := foldIn (if h.index % 256 = 0 then 0 else p.fold) (h.index % 256) h.crc
  let s := leaveLine (.slot i) s
  let s := s.modSlot i fun r => { r with progress := r.progress.map fun p => { p with hand := none, fold := fold } }
  let s := if h.index % 256 = 0 then
      (ports.map TargetKey.localPort ++ peers.map TargetKey.peer).foldl
        (fun s k => cellSent i k seg item.attempt s) s
    else s
  let s := if last && item.isPass then enterFold i seg fold s else s
  let s := ports.foldl (deliverWrite i h item.attempt) s
  let s := if peers.isEmpty then s else stageBlock i item c h s
  let s := if last then ports.foldl (bringLocalReadback i seg item.attempt) s else s
  let s := noteWaiting s
  let s := if item = .firstPass then parseBlock i h s else s
  if h.index + 1 < item.stop c.blockCount then toBlock i (h.index + 1) s else endItem i s

/-- A local resend brings its settle wait before its first block write (R34, R98; log 9). -/
def bringSettle (i : SlotId) (item : ReadItem) (c : CardRecord) (s : State) : State :=
  match item with
  | .resend seg (.localPort p) _ a =>
    match (c.target (.localPort p)).bind Target.run with
    | none => s
    | some run =>
      if (c.copyPorts item).contains p then
        (s.modPort p (Channel.bring (.settle run seg a))).modSlot i fun r => { r with
          progress := r.progress.map fun q => { q with settleBrought := true } }
      else s
  | _ => s

/-- The item is a local resend. -/
def ReadItem.needsSettle : ReadItem → Bool
  | .resend _ (.localPort _) _ _ => true
  | _ => false

/-- BLOCK_DELIVER (R31): the block in hand is delivered once every copy receiver has room, in its turn. -/
def execBlockDeliver (slot : SlotId) (s : State) : Host.Outcome State Fault Refusal :=
  match (s.slot slot).running, (s.slot slot).progress, s.card slot with
  | some item, some p, some c =>
    match p.hand with
    | none => .next s
    | some h =>
      if item.isCompare then .next s
      else if !s.mayEnter (.slot slot) then .next (joinLine (.slot slot) s)
      else if item.needsSettle && !p.settleBrought then
        let s := bringSettle slot item c s
        if s.mayEnter (.slot slot) then .next (deliverBlock slot item p c h s)
        else .next (noteWaiting (joinLine (.slot slot) s))
      else .next (deliverBlock slot item p c h s)
  | _, _, _ => .next s

/-! ## Removal (R22, R58) -/

/-- The record is abandoned (R58), and keeps the fields of R59. Its excluded stations and its NO_INDEX and
CLIPS_TRUNCATED flags, which R59 does not name, are kept too (log 55). -/
def abandonRecord (i : SlotId) (c : CardRecord) (s : State) : State :=
  let s := raiseFault (.card i)
    { kind := .cardRemovedEarly, detail := BitVec.ofNat 32 c.verifiedCount } s
  let s := if c.targets.any fun t => t.isPeer && t.active then
      handControl .runCancel 0 (runCancelBody c.tag .cardRemoved) s
    else s
  let s := endLocalRuns i s
  s.modCard i fun c => { c.enter .abandoned with
    waitingForRun := false, forming := [], retryTimer := none, window := .none, resend := [],
    targets := c.targets.map fun t => { t with cells := t.cells.map fun k => { k with timer := none } } }

/-- The record settled when its card is removed, by its state (R58). -/
def settleRemoval (i : SlotId) (s : State) : State :=
  match s.card i with
  | none => s
  | some c =>
    match c.state with
    | .releasable | .overridden => (endLocalRuns i s).setCard i none
    | .abandoned => s
    | _ => abandonRecord i c s

/-- The staging buffers a slot has claimed are freed unsent, but for one whose BLOCK is being transmitted (R22). -/
def freeStaging (i : SlotId) (t : Trunk) : Trunk :=
  let mine := fun b : StagedBlock => b.owner == some i
  if (t.tx.any fun x => x.source == .staging) then
    { t with staging := (t.staging.take 1).map (fun b => if mine b then { b with owner := none } else b)
        ++ (t.staging.drop 1).filter fun b => !mine b }
  else { t with staging := t.staging.filter fun b => !mine b }

/-- A record's waiting reservation request is dropped. -/
def dropRequest (i : SlotId) (s : State) : State :=
  PortId.inOrder.foldl (fun s p => s.modPort p fun c => { c with
    requests := c.requests.filter fun r => r != .card i }) s

/-- CARD_REMOVAL (R22): the slot becomes EMPTY, its reads and filling entry are released, and the record is settled. The
staging buffers are freed in READING only, as the table of R22 has them (log 37). The slot side comes before the record's,
so a notice of the released frame's proxy comes before that of CARD_REMOVED_EARLY (log 48). -/
def execCardRemoval (slot : SlotId) (s : State) : Host.Outcome State Fault Refusal :=
  let left := { s with seated := s.seated.set slot none }
  if (s.slot slot).state = .empty then .next left
  else
    let s := releaseFilling slot left
    let s := if (s.slot slot).state = .reading then s.modTrunk (freeStaging slot) else s
    let s := leaveLine (.slot slot) (dropRequest slot s)
    .next (settleRemoval slot (s.modSlot slot fun r => { SlotReader.start with size := r.size, bad := r.bad }))

/-! ## Lamps and record timers -/

/-- LAMP_BLINK_TOGGLE (R44): the 500 ms phase of a blinking lamp ends. -/
def execLampBlinkToggle (slot : SlotId) (s : State) : Host.Outcome State Fault Refusal :=
  match lampOf (s.card slot) with
  | .amberBlink _ | .greenBlink _ => .next (s.modCard slot fun c => { c with lampLit := !c.lampLit })
  | _ => .next s

/-- CLAIM_WINDOW_EXPIRY (R62): the timer of an open window expires, and the window closes under R65. -/
def execClaimWindowExpiry (slot : SlotId) (s : State) : Host.Outcome State Fault Refusal :=
  .next (closeWindow slot s)

/-- RETRY_INTERVAL_EXPIRY (R53): a new round, or the timer again. -/
def execRetryIntervalExpiry (slot : SlotId) (s : State) : Host.Outcome State Fault Refusal :=
  match s.card slot with
  | none => .next s
  | some c =>
    if c.state = .short ∧ c.retryTimer.isSome then
      if s.mode = .run ∧ s.trunk.presence ≠ [] then .next (newRound slot s)
      else .next (s.modCard slot fun c => { c with retryTimer := some s.cfg.retryInterval })
    else .next s

/-- REPORT_TIMER_EXPIRY (R107): a running timer of a cell in SENT expires, which is a failed attempt with cause
TIMEOUT. -/
def execReportTimerExpiry (slot : SlotId) (segment station : Nat) (s : State) :
    Host.Outcome State Fault Refusal :=
  match (s.card slot).bind fun c => (c.target (.peer station)).map fun t => (c, t.cell segment) with
  | none => .next s
  | some (c, cell) =>
    if cell.timer.isSome ∧ cell.state = .sent then
      .next (failedAttempt slot (.peer station)
        ⟨c.tag, segment, cell.attempt, .timeout, none, none, c.sourceFold segment, some 0, 0⟩ s)
    else .next s

end Sys2Proof.Machine
end

