-- ==== Sys2Proof/Machine/Trunk.lean ====
section
/-! DEFINITION. The commands of the Trunk Interface (chapter 1): receiver lock, receiving and routing, the presence table,
contention and sending, the station modes. -/

namespace Sys2Proof.Machine

/-! ## Receiver lock (R12, R13) -/

/-- RECEIVER_LOCK_LOST (R12, R13): the transmitter stops, the message being sent staying where it was; the sync-lost flag
is set and SYNC_LOST recorded, but not while the load runs. -/
def execReceiverLockLost (s : State) : Host.Outcome State Fault Refusal :=
  if s.trunk.locked then
    let sticky := s.trunk.syncLost
    let s := s.modTrunk fun t => { t with locked := false, tx := none }
    if s.loading then .next s
    else
      .next (raiseFault .station { kind := .syncLost, sticky := sticky }
        (s.modTrunk fun t => { t with syncLost := true }))
  else .next s

/-- RECEIVER_LOCK_GAINED (R13): the sync-lost flag stays as it is. -/
def execReceiverLockGained (s : State) : Host.Outcome State Fault Refusal :=
  .next (s.modTrunk fun t => { t with locked := true })

/-! ## The presence table (R15 to R17) -/

/-- The table with a station's entry refreshed, or created without fields, in increasing station number (R16). -/
def refreshEntry (station : Nat) : List PresenceEntry → List PresenceEntry
  | [] => [⟨station, 0, none⟩]
  | e :: es =>
    if station < e.station then ⟨station, 0, none⟩ :: e :: es
    else if e.station = station then { e with age := 0 } :: es
    else e :: refreshEntry station es

/-- The presence refresh of a good message (R4, R16). LOCAL-ONLY keeps no table. -/
def refreshPresence (source : Nat) (s : State) : State :=
  if source ≠ s.own ∧ s.mode ≠ .localOnly then
    s.modTrunk fun t => { t with presence := refreshEntry source t.presence }
  else s

/-- The fields of a good PRESENCE stored in its source's entry (R16). -/
def storePresence (source : Nat) (f : PresenceFields) (s : State) : State :=
  s.modTrunk fun t => { t with
    presence := t.presence.map fun e => if e.station = source then { e with fields := some f } else e }

/-! ## Entry to SILENT (R19, R47) -/

/-- What entry to SILENT changes in one record (R47). -/
def silenceRecord (s : State) (i : SlotId) : State :=
  match s.card i with
  | none => s
  | some c =>
    match c.state with
    | .indexing =>
      if c.waitingForRun then enterCopying i (s.modCard i fun c => { c with waitingForRun := false }) else s
    | .claiming => enterCopying i (s.modCard i fun c => { c with window := .none })
    | .short => s.modCard i fun c => { c with retryTimer := none }
    | _ => s

/-- Entry to SILENT (R19): queues and buffers emptied, timers stopped, DUPLICATE_NUMBER recorded, the report timers of the
BLOCKs freed unsent started (R106), the records settled (R47), in slot order (log 54). -/
def enterSilent (s : State) : State :=
  let freed := s.trunk.staging
  let s := { s.modTrunk (fun t => { t with
      mode := .silent, listenTimer := none, presenceTimer := none, sendQ := [], staging := [], tx := none }) with
    pubQ := [] }
  let s := raiseFault .station { kind := .duplicateNumber, detail := BitVec.ofNat 32 s.own } s
  let s := freed.foldl (fun s b => startReportTimers b s) s
  SlotId.inOrder.foldl silenceRecord s

/-- The duplicate-number check (R19). A station that is sending leaves it to a later message (log 21). -/
def duplicateCheck (source : Nat) (s : State) : State :=
  if source = s.own then
    match s.mode with
    | .listen => enterSilent s
    | .run => if s.trunk.tx.isNone then enterSilent s else s
    | .silent | .localOnly => s
  else s

/-! ## Routing (R4, R10, R11, R20) -/

/-- The current mode takes a message of a class addressed to 0 or to this station (R20). -/
def Mode.takes (m : Mode) (cls target : Nat) : Bool :=
  match m with
  | .listen | .run => true
  | .silent => if cls = 0 then true else cls ≤ 2 && target == 0
  | .localOnly => cls ≤ 2 && target == 0

/-- A message enters the control receive queue, or is discarded when it holds 32 (R10). -/
def enterReceived (m : Message) (s : State) : State :=
  if s.trunk.recvQ.length < 32 then s.modTrunk fun t => { t with recvQ := t.recvQ ++ [m] } else s

/-- The free bulk receive buffer of the lowest number. -/
def State.freeBuffer (s : State) : Option Nat :=
  (List.range 4).find? fun n => !(s.trunk.bulk.any fun b => b.buffer == n)

/-- A BLOCK offered to the bulk receive buffers (R11, R60): taken for an entry in RECEIVING, ignored without one, and
discarded when the four buffers are full. -/
def offerBlock (m : Message) (s : State) : State :=
  match s.freeBuffer with
  | none => s
  | some n =>
    match readBlock m n with
    | none => s
    | some b =>
      if (s.receiving b.tag).isSome then
        waitForRoom (.bulk n) (s.modTrunk fun t => { t with bulk := t.bulk ++ [b] })
      else s

/-- A good message routed by kind, target and mode (R4, R20). arb is its arbitration word, which gives the class of an
unknown kind (log 18). -/
def route (arb : Nat) (m : Message) (s : State) : State :=
  let words := m.body.length / 4
  let here := m.target = 0 ∨ m.target = s.own
  match Kind.ofCode m.code with
  | some .presence =>
    if words = 3 ∧ m.source ≠ s.own ∧ (s.mode = .silent → m.target = 0) then
      storePresence m.source (readPresence m.body) s
    else s
  | some .block =>
    if here ∧ Kind.block.lengthAllowed words = true ∧ (s.mode = .listen ∨ s.mode = .run) then offerBlock m s
    else s
  | some k =>
    if here ∧ s.mode.takes k.cls m.target = true ∧ (k.isRequest || k.lengthAllowed words) = true then
      enterReceived m s
    else s
  | none =>
    if m.target ≠ 0 ∧ m.target = s.own ∧ s.mode.takes (arb / 64) m.target = true then enterReceived m s else s

/-- MESSAGE_RECEIVED (R3, R4): a discarded message has no effect; a good one refreshes presence, is checked for a duplicate
number, and is routed. A good message from another station ends the class 3 deferral (R7). -/
def execMessageReceived (own : Bool) (bytes : List Byte) (s : State) : Host.Outcome State Fault Refusal :=
  if own || s.loading || !s.trunk.locked then .next s
  else
    match goodMessage bytes with
    | none => .next s
    | some (arb, m) =>
      let s := s.modTrunk fun t => { t with deferral := false }
      .next (route arb m (duplicateCheck m.source (refreshPresence m.source s)))

/-! ## Contention and sending (R1, R5 to R7, R15) -/

/-- The free blocks of a port as PRESENCE carries them (R15). -/
def presenceFree (c : Channel) : Nat := if c.state = .ready then c.freeBlocks else 0

/-- The card records that are not EMPTY. -/
def State.cardCount (s : State) : Nat := SlotId.inOrder.countP fun i => (s.card i).isSome

/-- The free places of the hosted table. -/
def State.freeHosted (s : State) : Nat := s.hosted.countP Option.isNone

/-- The body of a PRESENCE, filled as the transmitter begins to send it (R15). -/
def presenceBody (s : State) : List Byte :=
  [byteOf s.mode.code, byteOf s.freeHosted, byteOf s.cardCount, 0]
    ++ le32 (presenceFree (s.port .dc0)) ++ le32 (presenceFree (s.port .dc1))

/-- The oldest message of a class in the control send queue. -/
def Trunk.oldest (t : Trunk) (cls : Nat) : Option OutMessage := t.sendQ.find? fun m => m.kind.cls == cls

/-- The oldest message of the lowest class present in the control send queue, with its class. -/
def Trunk.controlOffer (t : Trunk) : Option (Nat × OutMessage) :=
  (List.range 3).findSome? fun cls => (t.oldest cls).map fun m => (cls, m)

/-- The one message the transmitter offers at an idle (R6), as a source with its kind, target and body. -/
def State.offer (s : State) : Option (TxSource × OutMessage) :=
  match s.trunk.controlOffer with
  | some (cls, m) =>
    some (.control cls, if m.kind = .presence then { m with body := presenceBody s } else m)
  | none =>
    match s.pubQ with
    | m :: _ => some (.publication, m)
    | [] =>
      match s.trunk.staging with
      | b :: _ => if s.trunk.deferral then none else some (.staging, ⟨.block, b.target, blockBody b⟩)
      | [] => none

/-- The station may contend: LOCKED, in RUN, and sending nothing (R5). -/
def State.mayContend (s : State) : Bool := s.trunk.locked && s.mode == .run && s.trunk.tx.isNone

/-- A lower word than this station's is on the medium (R5). -/
def lowerHeard (others : Option Byte) (word : Nat) : Bool := others.any fun o => o.toNat < word

/-- TRUNK_IDLE_CONTEND (R5, R6): the station offers a message; a lower word wins over it, and its message stays where it
was. -/
def execTrunkIdleContend (others : Option Byte) (s : State) : Host.Outcome State Fault Refusal :=
  if s.mayContend then
    match s.offer with
    | none => .next s
    | some (source, m) =>
      if lowerHeard others (arbitrationWord m.kind.cls s.own) then .next s
      else .next (s.modTrunk fun t => { t with tx := some ⟨source, envelope s.own m.kind m.target m.body⟩ })
  else .next s

/-- COLLISION (R5): the message is abandoned and stays where it was. -/
def execCollision (s : State) : Host.Outcome State Fault Refusal :=
  .next (s.modTrunk fun t => { t with tx := none })

/-- The sending of a CARD_ANNOUNCE opens the claim window of its record, if that still waits for it (R62). -/
def announceSent (body : List Byte) (s : State) : State :=
  match s.holderOf (tagAt body) with
  | none => s
  | some i =>
    match s.card i with
    | none => s
    | some c =>
      match c.window with
      | .unsent wanted => if c.state = .claiming ∧ c.round = byteAt body 4 then openWindow i wanted s else s
      | _ => s

/-- A pending owner served by the almost-empty sweep, while the level is below 64 (R166). -/
def sweepOwner (s : State) (o : Owner) : State :=
  if ((s.logOf o).any fun l => l.pending) && s.pubQ.length < 64 then publishSummary o 2 s else s

/-- The owners in the order of the sweep: the station, then each slot's card record and its clips (R166). -/
def State.sweepOwners (s : State) : List Owner :=
  .station :: SlotId.inOrder.flatMap fun i =>
    match s.card i with
    | none => []
    | some c => .card i :: (List.range c.clips.length).map (Owner.clip i)

/-- The head of the publication queue has been sent (R163); a level of 16 brings the sweep (R166). -/
def publicationSent (s : State) : State :=
  let s := { s with pubQ := s.pubQ.tail }
  if s.pubQ.length = 16 then s.sweepOwners.foldl sweepOwner s else s

/-- A message of a class sent from the control send queue (R6). -/
def controlSent (cls : Nat) (s : State) : State :=
  match takeFirst (fun m : OutMessage => m.kind.cls == cls) s.trunk.sendQ with
  | none => s
  | some (m, rest) =>
    let s := s.modTrunk fun t => { t with sendQ := rest }
    if m.kind = .cardAnnounce then announceSent m.body s else s

/-- The BLOCK of the oldest staging buffer sent: the buffer is free, the deferral begins, report timers start (R6, R7,
R106). -/
def stagingSent (s : State) : State :=
  match s.trunk.staging with
  | [] => s
  | b :: rest => startReportTimers b (s.modTrunk fun t => { t with staging := rest, deferral := true })

/-- MESSAGE_SENT (R1, R6): the sent message leaves its source. -/
def execMessageSent (s : State) : Host.Outcome State Fault Refusal :=
  match s.trunk.tx with
  | none => .next s
  | some x =>
    let s := s.modTrunk fun t => { t with tx := none }
    match x.source with
    | .control cls => .next (controlSent cls s)
    | .publication => .next (publicationSent s)
    | .staging => .next (stagingSent s)

/-- CLASS3_DEFERRAL_IDLE_EXPIRY (R7): 4 µs of idle with no station sending end the deferral, in either lock state
(log 52). -/
def execClass3DeferralIdleExpiry (s : State) : Host.Outcome State Fault Refusal :=
  if s.trunk.tx.isNone then .next (s.modTrunk fun t => { t with deferral := false }) else .next s

/-! ## Presence and modes -/

/-- PRESENCE_INTERVAL_EXPIRY (R14): a PRESENCE is handed to the queue, and the timer restarts. -/
def execPresenceIntervalExpiry (s : State) : Host.Outcome State Fault Refusal :=
  match s.trunk.presenceTimer with
  | none => .next s
  | some _ =>
    .next ((handControl .presence 0 [] s).modTrunk fun t => { t with presenceTimer := some s.cfg.presenceInterval })

/-- The PEER target of a lost station is dropped, in a record that is not ABANDONED (R80). -/
def dropLostTarget (station : Nat) (s : State) (i : SlotId) : State :=
  match (s.card i).map CardRecord.state with
  | none | some .abandoned => s
  | some _ => endTarget i (.peer station) .dropped true s

/-- The ranked claim of a lost station is struck (R64). A window is open in CLAIMING alone. -/
def strikeClaim (station : Nat) (s : State) (i : SlotId) : State :=
  match s.card i with
  | none => s
  | some c =>
    match c.window with
    | .opened wanted ranked len =>
      if c.state = .claiming ∧ ranked.contains station = true then
        zeroWindowTest i (s.modCard i fun c => { c with
          window := .opened wanted (ranked.filter fun n => n != station) len })
      else s
    | _ => s

/-- Station lost (R17): targets dropped (R80), hosted entries settled (R79), ranked claims struck (R64); in this order (log
23). -/
def stationLost (station : Nat) (s : State) : State :=
  let s := SlotId.inOrder.foldl (dropLostTarget station) s
  let s := (List.range 8).foldl (fun s place => settleLostSource station place s) s
  SlotId.inOrder.foldl (strikeClaim station) s

/-- An entry's age has passed the presence timeout (R17, R179). -/
def State.overdue (s : State) (e : PresenceEntry) : Bool := s.cfg.presenceTimeout < e.age

/-- The entry of a station is removed, and station lost is raised (R17). -/
def removeStation (station : Nat) (s : State) : State :=
  stationLost station
    (s.modTrunk fun t => { t with presence := t.presence.filter fun e => e.station != station })

/-- PRESENCE_TIMEOUT (R17): the entry is removed when its age has passed the timeout. After a refresh taken first, it has
not, and the entry stays. -/
def execPresenceTimeout (station : Nat) (s : State) : Host.Outcome State Fault Refusal :=
  if s.trunk.presence.any fun e => e.station == station && s.overdue e then .next (removeStation station s)
  else .next s

/-- A record waiting for RUN is let go (R47). -/
def releaseWaiting (s : State) (i : SlotId) : State :=
  match s.card i with
  | none => s
  | some c =>
    if c.state = .indexing ∧ c.waitingForRun = true then
      let s := s.modCard i fun c => { c with waitingForRun := false }
      if s.trunk.presence.isEmpty then enterCopying i s else enterClaiming i c.peerCopiesWanted s
    else s

/-- What happens with no command waiting (R16, R17; log 2): an entry past the timeout is removed, the lowest station
first; with none, one millisecond passes, and the ages of the presence table run. -/
def passIdle (s : State) : State :=
  match s.trunk.presence.find? s.overdue with
  | some e => removeStation e.station s
  | none => s.modTrunk fun t => { t with presence := t.presence.map fun e => { e with age := e.age + 1 } }

/-- Entry to RUN (R14, R18, R47). -/
def enterRun (s : State) : State :=
  let s := s.modTrunk fun t => { t with
    mode := .run, listenTimer := none, presenceTimer := some s.cfg.presenceInterval }
  SlotId.inOrder.foldl releaseWaiting (handControl .presence 0 [] s)

/-- LISTEN_TIME_EXPIRY (R18): the LISTEN time, which counts only while LOCKED, has counted out. -/
def execListenTimeExpiry (s : State) : Host.Outcome State Fault Refusal :=
  if s.mode = .listen ∧ s.trunk.listenTimer.isSome = true ∧ s.trunk.locked = true then .next (enterRun s) else .next s

end Sys2Proof.Machine
end

