-- ==== Sys2Proof/Machine/Runs.lean ====
section
/-! DEFINITION. The commands of peer copies (chapter 4): the messages that the Offload Controller takes from the control
receive queue, the hand-over of BLOCKs to a work queue, and the timers of hosted entries. -/

namespace Sys2Proof.Machine

/-! ## Messages of a round -/

/-- An announce taken (R60, R66, R67). -/
def takeAnnounce (m : Message) (s : State) : State :=
  match readAnnounce m with
  | none => s
  | some a => considerClaim a (endStaleRun a.announce.tag s)

/-- CARD_ANNOUNCE (R66, R67). -/
def execCardAnnounce (s : State) : Host.Outcome State Fault Refusal :=
  .next (takeMessage .cardAnnounce takeAnnounce s)

/-- A station may be ranked in a record's window: it is not excluded and is no target of the record (R63). -/
def CardRecord.admits (c : CardRecord) (station : Nat) : Bool :=
  !c.excluded.contains station && (c.target (.peer station)).isNone

/-- A claim taken (R60, R63): ranked at the end of an open window of its round, which may close it (R62). -/
def takeClaim (m : Message) (s : State) : State :=
  match readClaim m with
  | none => s
  | some (tag, round) =>
    match s.holderOf tag with
    | none => s
    | some i =>
      match s.card i with
      | none => s
      | some c =>
        match c.window with
        | .opened wanted ranked len =>
          if c.state = .claiming ∧ c.round = round ∧ c.admits m.source = true ∧ ranked.contains m.source = false then
            zeroWindowTest i (s.modCard i fun c => { c with
              window := .opened wanted (ranked ++ [m.source]) len })
          else s
        | _ => s

/-- CLAIM (R63). -/
def execClaim (s : State) : Host.Outcome State Fault Refusal := .next (takeMessage .claim takeClaim s)

/-- The granted entry enters RECEIVING, and its reservation timer stops (R69). -/
def HostedEntry.granted (e : HostedEntry) : HostedEntry := { e with state := .receiving, reservationTimer := none }

/-- A claim reply taken (R60, R69). -/
def takeClaimReply (m : Message) (s : State) : State :=
  match readClaimReply m with
  | none => s
  | some (tag, round, stations) =>
    match s.hostedPlace tag with
    | none => s
    | some place =>
      match s.hostedAt place with
      | none => s
      | some e =>
        if e.state = .reserved ∧ e.round = round then
          if stations.contains s.own then s.setHosted place (some e.granted) else freeEntry place false s
        else s

/-- CLAIM_REPLY (R69). -/
def execClaimReply (s : State) : Host.Outcome State Fault Refusal :=
  .next (takeMessage .claimReply takeClaimReply s)

/-- The run of an entry ends (R76, R77): RECEIVING ends in the given state; RESERVED and ORPHANED are freed. -/
def endHosted (tag : Tag) (st : HostedState) (s : State) : State :=
  match s.hostedPlace tag with
  | none => s
  | some place =>
    match (s.hostedAt place).map HostedEntry.state with
    | some .reserved => freeEntry place false s
    | some .orphaned => freeEntry place true s
    | some .receiving => finishEntry place st s
    | _ => s

/-- The end of an entry under RUN_END: COMPLETE when it is named with VERIFIED, CANCELLED otherwise (R76). Of two entries
that name the station the first counts (log 56). -/
def runEndState (own : Nat) (listed : List (Nat × Bool)) : HostedState :=
  match listed.find? fun e => e.1 == own with
  | some (_, true) => .complete
  | _ => .cancelled

/-- A run end taken (R60, R76). -/
def takeRunEnd (m : Message) (s : State) : State :=
  match readRunEnd m with
  | none => s
  | some (tag, listed) => endHosted tag (runEndState s.own listed) s

/-- RUN_END (R76). -/
def execRunEnd (s : State) : Host.Outcome State Fault Refusal := .next (takeMessage .runEnd takeRunEnd s)

/-- A run cancel taken (R60, R77). -/
def takeRunCancel (m : Message) (s : State) : State :=
  match readRunCancel m with
  | none => s
  | some tag => endHosted tag .cancelled s

/-- RUN_CANCEL (R77). -/
def execRunCancel (s : State) : Host.Outcome State Fault Refusal := .next (takeMessage .runCancel takeRunCancel s)

/-- A report taken (R60, R81): matched to the record that holds its tag and to its PEER target in WRITING. -/
def takeReport (m : Message) (s : State) : State :=
  match readReport m with
  | none => s
  | some r =>
    match s.holderOf r.tag with
    | none => s
    | some i =>
      match s.card i with
      | none => s
      | some c =>
        if !c.state.ignoresReports && ((c.target (.peer m.source)).any fun t => t.state == .writing) then
          judgeReport i m.source r s
        else s

/-- SEGMENT_REPORT (R81, R105). -/
def execSegmentReport (s : State) : Host.Outcome State Fault Refusal :=
  .next (takeMessage .segmentReport takeReport s)

/-! ## Receiving a hosted copy -/

/-- The first waiting BLOCK for a port: buffers for one port are handed over in arrival order (R11). -/
def State.firstBulk (s : State) (p : PortId) : Option BulkBlock :=
  s.trunk.bulk.find? fun b => (s.receiving b.tag).any fun e => e.port == p

/-- HOSTED_BLOCK_HANDOVER (R71): the first waiting BLOCK for a port is placed and handed over once there is room, in its
turn. A block that R72 ignores needs none, and its buffer is freed. -/
def execHostedBlockHandover (port : PortId) (s : State) : Host.Outcome State Fault Refusal :=
  match s.firstBulk port with
  | none => .next s
  | some b =>
    match s.hostedPlace b.tag with
    | none => .next s
    | some place =>
      match s.hostedAt place with
      | none => .next s
      | some e =>
        if s.mayEnter (.bulk b.buffer) then
          let s := s.modTrunk fun t => { t with bulk := t.bulk.filter fun x => x.buffer != b.buffer }
          .next (placeBlock place e b (leaveLine (.bulk b.buffer) s))
        else .next (joinLine (.bulk b.buffer) s)

/-- SEGMENT_IDLE_TIMER_EXPIRY (R73): the open segment of the entry in a place closes. -/
def execSegmentIdleTimerExpiry (place : Nat) (s : State) : Host.Outcome State Fault Refusal :=
  match s.hostedAt place with
  | none => .next s
  | some e => if e.state = .receiving then .next (noteWaiting (closeSegment place s)) else .next s

/-- RESERVATION_TIMER_EXPIRY (R68): an entry in RESERVED is freed, and no fault is recorded. -/
def execReservationTimerExpiry (place : Nat) (s : State) : Host.Outcome State Fault Refusal :=
  match s.hostedAt place with
  | none => .next s
  | some e => if e.state = .reserved then .next (freeEntry place false s) else .next s

end Sys2Proof.Machine
end

