-- ==== Sys2Proof/Machine/Restart.lean ====
section
/-! DEFINITION. Start reset, the end of the configuration load, and the warm restart (chapter 11). -/

namespace Sys2Proof.Machine

/-- The card-insert events of the slots that hold a card, slot 0 first (R176, R181). -/
def mountSeated (s : State) : State :=
  SlotId.inOrder.foldl (fun s i =>
    match s.seated.get i with
    | none => s
    | some size => mountCard i size s) s

/-- The record of a port rebuilt from what is attached to it (R84). -/
def rebuiltChannel : Option DriveReport → Channel
  | none => .start
  | some r => .attach r

/-- START_RESET (R180): every block takes its start value, the destination records are rebuilt from the attached drives,
and the load begins. The queue of commands is the model's own and stays. -/
def execStartReset (drives : Two (Option DriveReport)) (cards : Four (Option Nat)) (s : State) :
    Host.Outcome State Fault Refusal :=
  .next { State.reset with
    pending := s.pending
    seated := cards
    ports := ⟨rebuiltChannel drives.dc0, rebuiltChannel drives.dc1⟩ }

/-- The LISTEN time: twice the presence interval (R18). -/
def State.listenLength (s : State) : Nat := 2 * s.cfg.presenceInterval

/-- The mode set at the end of the load (R18). -/
def setLoadedMode (s : State) : State :=
  if s.own = 0 then s.modTrunk fun t => { t with mode := .localOnly, listenTimer := none }
  else s.modTrunk fun t => { t with mode := .listen, listenTimer := some s.listenLength }

/-- CONFIGURATION_LOAD_END (R176): the image is built, the mode set, CONFIG_DEFAULTED raised if the image was defaulted
(R177), and the seated cards mounted. -/
def execConfigurationLoadEnd (memory : List (Option Byte)) (s : State) : Host.Outcome State Fault Refusal :=
  if s.loading then
    let loaded := loadImage memory
    let s := setLoadedMode { s with image := some loaded.1 }
    let s := match loaded.2 with
      | none => s
      | some d => raiseFault .station { kind := .configDefaulted, detail := BitVec.ofNat 32 d } s
    .next (mountSeated s)
  else .next s

/-- A channel at a warm restart (R182): a block write in service completes first; any other item stops, and the channel
finishes at once. A request that waited belonged to a run that is dropped. -/
def Channel.beginRestart (c : Channel) : Channel :=
  match c.serving with
  | some (.write ..) => { c with finishing := true, requests := [] }
  | _ => c.restarted

/-- The Trunk Interface after a warm restart (01, Trunk Interface state after reset). -/
def State.restartedTrunk (s : State) : Trunk :=
  { Trunk.start with
    locked := s.trunk.locked
    presence := s.trunk.presence
    mode := if s.mode = .localOnly then .localOnly else .listen
    listenTimer := if s.mode = .localOnly then none else some s.listenLength }

/-- What a warm restart returns to its start value and what it keeps (R181), before the mounts. -/
def State.restarted (s : State) : State :=
  { State.reset with
    pending := s.pending
    image := s.image
    seated := s.seated
    trunk := s.restartedTrunk
    serial := s.serial
    nextRun := s.nextRun
    ports := ⟨s.ports.dc0.beginRestart, s.ports.dc1.beginRestart⟩
    looks := s.looks }

/-- A warm restart (R181): each slot that holds a card takes a card-insert event at once. -/
def warmRestart (s : State) : State := mountSeated s.restarted

end Sys2Proof.Machine
end

