-- ==== Sys2Proof/Machine/Console.lean ====
section
/-! DEFINITION. The console requests and their replies (chapter 10), and the kinds that no block of the part owns (R10). -/

namespace Sys2Proof.Machine

/-! ## Taking a request (R168, R169) -/

/-- A request's tests in their order: the body length, then the enumerated bytes; a request that passes is taken. The mode
was tested when the request was received, and is not tested again (R168; log 49). -/
def takeRequest (k : Kind) (badByte : Message → Bool) (act : Message → State → State) (m : Message) (s : State) :
    State :=
  if m.body.length ≠ 4 * k.requestWords ∨ badByte m = true then refuse m .malformed s else act m s

/-- A request at the head of the control receive queue is removed and taken or refused. -/
def answer (k : Kind) (badByte : Message → Bool) (act : Message → State → State) (s : State) : State :=
  takeMessage k (takeRequest k badByte act) s

/-- A request without an enumerated byte. -/
def noEnumerated (_ : Message) : Bool := false

/-- An enumerated byte of the body is above 1. -/
def aboveOne (offset : Nat) (m : Message) : Bool := decide (1 < byteAt m.body offset)

/-- A request for a card by its tag: refused with UNKNOWN_CARD when no record holds it (R168, R173). -/
def withHeldCard (act : SlotId → CardRecord → Message → State → State) (m : Message) (s : State) : State :=
  match s.holderOf (tagAt m.body) with
  | none => refuse m .unknownCard s
  | some i =>
    match s.card i with
    | none => refuse m .unknownCard s
    | some c => act i c m s

/-- A reply handed to the control send queue, addressed to the request's source (R168). -/
def reply (k : Kind) (m : Message) (body : List Byte) (s : State) : State := handControl k m.source body s

/-! ## Messages that no block owns (R10) and unknown kinds (R168) -/

/-- The kinds read by console adapters. -/
def Kind.isReply : Kind → Bool
  | .cardStatus | .clipStatus | .stationStatus | .refusal | .faultNotice | .faultSummary => true
  | _ => false

/-- REPLY_KIND_REMOVED (R10): a message of a kind that only console adapters read is removed without effect. -/
def execReplyKindRemoved (s : State) : Host.Outcome State Fault Refusal :=
  match s.trunk.recvQ.head?.bind fun m => Kind.ofCode m.code with
  | none => .next s
  | some k => if k.isReply then .next (dropReceived s) else .next s

/-- UNKNOWN_KIND_REQUEST (R168): a message of a kind not in the table of R2 is refused as MALFORMED. -/
def execUnknownKindRequest (s : State) : Host.Outcome State Fault Refusal :=
  match s.trunk.recvQ.head? with
  | none => .next s
  | some m => if (Kind.ofCode m.code).isNone then .next (refuse m .malformed (dropReceived s)) else .next s

/-! ## CARD_QUERY (R170) -/

/-- A target's two words. -/
def targetWords (t : Target) : List Byte :=
  (match t.key with
    | .localPort p => [1, byteOf (portNumber p)]
    | .peer n => [2, byteOf n])
    ++ [byteOf t.state.code, byteOf t.roundFormed] ++ le32 t.verifiedSegments

/-- The body of CARD_STATUS. -/
def cardStatusBody (i : SlotId) (c : CardRecord) : List Byte :=
  tagWord c.tag
    ++ [byteOf (slotNumber i), byteOf c.state.code, byteOf c.round, byteOf c.k]
    ++ [byteOf c.verifiedCount,
        byteOf (bit 1 c.hold + bit 2 c.noIndex + bit 4 c.clipsTruncated + bit 8 c.log.pending),
        byteOf c.targets.length, byteOf c.excluded.length]
    ++ padTo 8 c.roll ++ le32 c.blockCount ++ le32 c.segmentCount
    ++ le16 c.sourceErrors ++ [byteOf c.resend.length, 0]
    ++ padTo 8 (c.excluded.map byteOf)
    ++ padTo 40 (c.targets.flatMap targetWords)
    ++ countWords 8 c.log.counts
    ++ [byteOf c.log.records.length, 0, 0, 0] ++ listWords c.log.records

/-- The record of a slot reported, or refused when it is EMPTY. -/
def reportSlot (i : SlotId) (m : Message) (s : State) : State :=
  match s.card i with
  | none => refuse m .unknownCard s
  | some c => reply .cardStatus m (cardStatusBody i c) s

/-- A card query taken: by tag in mode 0, by slot in mode 1. -/
def takeCardQuery (m : Message) (s : State) : State :=
  if byteAt m.body 4 = 0 then withHeldCard (fun i _ m s => reportSlot i m s) m s
  else
    match slotOfNumber (byteAt m.body 5) with
    | none => refuse m .badSlot s
    | some i => reportSlot i m s

/-- CARD_QUERY (R170). -/
def execCardQuery (s : State) : Host.Outcome State Fault Refusal :=
  .next (answer .cardQuery (aboveOne 4) takeCardQuery s)

/-! ## CLIP_QUERY (R171) -/

/-- The body of CLIP_STATUS. -/
def clipStatusBody (tag : Tag) (n : Nat) (k : Clip) : List Byte :=
  tagWord tag ++ le16 n
    ++ [byteOf k.assigned,
        byteOf (bit 1 k.regradeDue + bit 2 k.log.pending + bit 4 k.clipEnd + bit 8 k.complete
          + bit 16 k.latched.isSome + bit 32 k.cadence.isSome)]
    ++ le32 k.first ++ le32 k.count ++ le32 k.frames ++ le32 k.rateM
    ++ le16 k.rateN ++ le16 k.flags.toNat ++ padTo 4 k.timecode
    ++ [byteOf ((k.latched.map Latched.slot).getD 0xFF), 0]
    ++ le16 ((k.latched.map fun l => l.version.toNat).getD 0)
    ++ padTo 8 ((k.latched.map Latched.name).getD (List.replicate 8 0x20))
    ++ le32 k.seen ++ le32 k.checked ++ le32 k.skipped
    ++ leWord ((k.cadence.map Cadence.c0).getD 0) ++ leWord ((k.cadence.map Cadence.t0).getD 0)
    ++ leWord ((k.cadence.map Cadence.p).getD 0)
    ++ countWords 12 k.log.counts
    ++ [byteOf k.log.records.length, 0, 0, 0] ++ listWords k.log.records

/-- A clip query taken. -/
def takeClipQuery (m : Message) (s : State) : State :=
  withHeldCard (fun _ c m s =>
    let n := halfAt m.body 4
    match c.clips[n]? with
    | none => refuse m .unknownClip s
    | some k => reply .clipStatus m (clipStatusBody c.tag n k) s) m s

/-- CLIP_QUERY (R171). -/
def execClipQuery (s : State) : Host.Outcome State Fault Refusal :=
  .next (answer .clipQuery noEnumerated takeClipQuery s)

/-! ## STATION_QUERY (R172) -/

/-- The four words of a destination record; bytes that R172 does not name are 0 (log 62). -/
def channelWords (c : Channel) : List Byte :=
  [byteOf c.state.code, byteOf (classCode c.cls), 0, 0] ++ le32 c.fig.capacity ++ le32 c.fig.used
    ++ le32 c.fig.reserved

/-- The eight words of a mismatch capture; an empty one is reported as zeros (log 30). -/
def captureWords : Option Capture → List Byte
  | none => List.replicate 32 0
  | some c =>
    [1, if c.offset.isSome then 2 else 1] ++ le16 c.segment ++ tagWord c.tag ++ le32 c.block ++ optNat c.offset
      ++ leWord c.source ++ leWord c.drive ++ le32 c.count ++ [0, 0, 0, 0]

/-- The four words of a presence entry; the byte that R172 does not name is 0 (log 62). -/
def presenceWords (e : PresenceEntry) : List Byte :=
  [byteOf e.station, byteOf (bit 1 e.fields.isSome), byteOf ((e.fields.map PresenceFields.mode).getD 0),
    byteOf ((e.fields.map PresenceFields.freeHosted).getD 0)]
    ++ le16 (min 65535 e.age) ++ [byteOf ((e.fields.map PresenceFields.cards).getD 0), 0]
    ++ leWord ((e.fields.map PresenceFields.dc0Free).getD 0)
    ++ leWord ((e.fields.map PresenceFields.dc1Free).getD 0)

/-- The seven words of a hosted entry in use, with the figures its channel keeps for its run. With no segment open, the
fields of the open segment are 0 (log 61), and so is the byte that R172 does not name (log 62). The index of the open
segment is sent with its low 16 bits (log 41). -/
def hostedWords (s : State) (e : HostedEntry) : List Byte :=
  tagWord e.tag
    ++ [byteOf e.round, byteOf (portNumber e.port), byteOf e.state.code, byteOf (bit 1 e.opened.isSome)]
    ++ le32 e.blockCount ++ le32 ((s.port e.port).reservationOf e.run)
    ++ le32 ((s.port e.port).writtenOf e.run)
    ++ le16 ((e.opened.map OpenSegment.segment).getD 0)
    ++ [byteOf ((e.opened.map OpenSegment.attempt).getD 0), 0]
    ++ le16 ((e.opened.map fun o => o.present.length).getD 0) ++ le16 e.lastMismatch

/-- The hosted entries in use, in table place order. -/
def State.hostedInUse (s : State) : List HostedEntry := s.hosted.filterMap id

/-- The body of STATION_STATUS. -/
def stationStatusBody (s : State) : List Byte :=
  [byteOf s.mode.code,
    byteOf (bit 1 s.trunk.syncLost + bit 2 s.trunk.locked + bit 4 s.stationLog.pending),
    byteOf s.own, byteOf s.pubQ.length,
    byteOf s.trunk.presence.length, byteOf s.hostedInUse.length, byteOf s.stationLog.records.length, 0]
    ++ countWords 6 s.stationLog.counts
    ++ channelWords (s.port .dc0) ++ channelWords (s.port .dc1)
    ++ captureWords (s.port .dc0).capture ++ captureWords (s.port .dc1).capture
    ++ listWords s.stationLog.records
    ++ s.trunk.presence.flatMap presenceWords ++ s.hostedInUse.flatMap (hostedWords s)

/-- A station query taken: the reply reports the sync-lost flag as it stood, and it is then cleared on request (R13). -/
def takeStationQuery (m : Message) (s : State) : State :=
  let s := reply .stationStatus m (stationStatusBody s) s
  if byteAt m.body 0 = 1 then s.modTrunk fun t => { t with syncLost := false } else s

/-- STATION_QUERY (R172). -/
def execStationQuery (s : State) : Host.Outcome State Fault Refusal :=
  .next (answer .stationQuery (aboveOne 0) takeStationQuery s)

/-! ## Requests on a card (R55 to R57, R173) -/

/-- The table of R56 for a record that is not ABANDONED. -/
def CardRecord.held (on : Bool) (c : CardRecord) : CardRecord :=
  match c.state, on with
  | .releasable, true => { c with hold := true }.enter .held
  | .held, false => if c.sourceErrors = 0 then { c with hold := false }.enter .releasable else { c with hold := false }
  | _, _ => { c with hold := on }

/-- A hold taken (R56). -/
def takeHold (i : SlotId) (c : CardRecord) (m : Message) (s : State) : State :=
  if c.state = .abandoned then refuse m .wrongState s
  else s.modCard i (CardRecord.held (byteAt m.body 4 == 1))

/-- HOLD (R56). -/
def execHold (s : State) : Host.Outcome State Fault Refusal :=
  .next (answer .hold (aboveOne 4) (withHeldCard takeHold) s)

/-- A forced release taken: the record enters OVERRIDDEN, and its retry timer stops (R57). -/
def takeForceRelease (i : SlotId) (c : CardRecord) (m : Message) (s : State) : State :=
  if c.state = .held ∨ c.state = .short then
    s.modCard i fun c => { c.enter .overridden with retryTimer := none }
  else refuse m .wrongState s

/-- FORCE_RELEASE (R57). -/
def execForceRelease (s : State) : Host.Outcome State Fault Refusal :=
  .next (answer .forceRelease noEnumerated (withHeldCard takeForceRelease) s)

/-- A retry taken: a new round begins at once (R55). -/
def takeRetryCopy (i : SlotId) (c : CardRecord) (m : Message) (s : State) : State :=
  if c.state = .short ∧ c.round < 15 ∧ s.mode = .run ∧ 1 ≤ c.copiesWanted then newRound i s
  else refuse m .wrongState s

/-- RETRY_COPY (R55). -/
def execRetryCopy (s : State) : Host.Outcome State Fault Refusal :=
  .next (answer .retryCopy noEnumerated (withHeldCard takeRetryCopy) s)

/-! ## Requests on the station (R138, R174, R175) -/

/-- A selection taken: the shown frame is unchanged (R138). -/
def takeMonitorSelect (m : Message) (s : State) : State :=
  match slotOfNumber (byteAt m.body 0) with
  | none => refuse m .badSlot s
  | some i => { s with grade := { s.grade with monitored := i } }

/-- MONITOR_SELECT (R138). -/
def execMonitorSelect (s : State) : Host.Outcome State Fault Refusal :=
  .next (answer .monitorSelect noEnumerated takeMonitorSelect s)

/-- The entry in a place freed if it is ORPHANED (R175). -/
def freeOrphan (s : State) (place : Nat) : State :=
  match (s.hostedAt place).map HostedEntry.state with
  | some .orphaned => freeEntry place true s
  | _ => s

/-- CLEAR_ORPHANS (R175). -/
def execClearOrphans (s : State) : Host.Outcome State Fault Refusal :=
  .next (answer .clearOrphans noEnumerated (fun _ s => (List.range 8).foldl freeOrphan s) s)

/-- A clear of an abandoned record taken: the record becomes EMPTY (R59, R175). -/
def takeClearAbandoned (m : Message) (s : State) : State :=
  match slotOfNumber (byteAt m.body 0) with
  | none => refuse m .badSlot s
  | some i =>
    match (s.card i).map CardRecord.state with
    | some .abandoned => s.setCard i none
    | _ => refuse m .wrongState s

/-- CLEAR_ABANDONED (R175). -/
def execClearAbandoned (s : State) : Host.Outcome State Fault Refusal :=
  .next (answer .clearAbandoned noEnumerated takeClearAbandoned s)

/-- RESTART (R174, R181): no reply is formed. -/
def execRestart (s : State) : Host.Outcome State Fault Refusal :=
  .next (answer .restart noEnumerated (fun _ s => warmRestart s) s)

end Sys2Proof.Machine
end

