-- ==== Sys2Proof/Machine/Dispatch.lean ====
section
/-! DEFINITION. One arm for each command: the meaning of each row of the table. -/

namespace Sys2Proof.Machine

/-- The effect of a command on everything but the queue of waiting commands. -/
def exec (i : Instr) (s : State) : Host.Outcome State Fault Refusal :=
  match i with
  | .startReset drives cards => Sys2Proof.Machine.execStartReset drives cards s
  | .configurationLoadEnd memory => Sys2Proof.Machine.execConfigurationLoadEnd memory s
  | .receiverLockLost => Sys2Proof.Machine.execReceiverLockLost s
  | .receiverLockGained => Sys2Proof.Machine.execReceiverLockGained s
  | .messageReceived own bytes => Sys2Proof.Machine.execMessageReceived own bytes s
  | .trunkIdleContend others => Sys2Proof.Machine.execTrunkIdleContend others s
  | .collision => Sys2Proof.Machine.execCollision s
  | .messageSent => Sys2Proof.Machine.execMessageSent s
  | .class3DeferralIdleExpiry => Sys2Proof.Machine.execClass3DeferralIdleExpiry s
  | .presenceIntervalExpiry => Sys2Proof.Machine.execPresenceIntervalExpiry s
  | .presenceTimeout station => Sys2Proof.Machine.execPresenceTimeout station s
  | .listenTimeExpiry => Sys2Proof.Machine.execListenTimeExpiry s
  | .lampBlinkToggle slot => Sys2Proof.Machine.execLampBlinkToggle slot s
  | .cardInsert slot size => Sys2Proof.Machine.execCardInsert slot size s
  | .cardRemoval slot => Sys2Proof.Machine.execCardRemoval slot s
  | .blockReadTryEnd slot data => Sys2Proof.Machine.execBlockReadTryEnd slot data s
  | .blockDeliver slot => Sys2Proof.Machine.execBlockDeliver slot s
  | .hostedBlockHandover port => Sys2Proof.Machine.execHostedBlockHandover port s
  | .segmentIdleTimerExpiry place => Sys2Proof.Machine.execSegmentIdleTimerExpiry place s
  | .reservationTimerExpiry place => Sys2Proof.Machine.execReservationTimerExpiry place s
  | .claimWindowExpiry slot => Sys2Proof.Machine.execClaimWindowExpiry slot s
  | .retryIntervalExpiry slot => Sys2Proof.Machine.execRetryIntervalExpiry slot s
  | .reportTimerExpiry slot segment station => Sys2Proof.Machine.execReportTimerExpiry slot segment station s
  | .driveAttach port report => Sys2Proof.Machine.execDriveAttach port report s
  | .driveDetach port => Sys2Proof.Machine.execDriveDetach port s
  | .driveError port => Sys2Proof.Machine.execDriveError port s
  | .blockWriteDone port => Sys2Proof.Machine.execBlockWriteDone port s
  | .digestReadbackDone port blocks => Sys2Proof.Machine.execDigestReadbackDone port blocks s
  | .fullComparePair port drive => Sys2Proof.Machine.execFullComparePair port drive s
  | .settleWaitDone port => Sys2Proof.Machine.execSettleWaitDone port s
  | .proxyFrameService port => Sys2Proof.Machine.execProxyFrameService port s
  | .proxyOutboxEnter slot => Sys2Proof.Machine.execProxyOutboxEnter slot s
  | .gradeTake => Sys2Proof.Machine.execGradeTake s
  | .gradeComplete => Sys2Proof.Machine.execGradeComplete s
  | .cardAnnounce => Sys2Proof.Machine.execCardAnnounce s
  | .claim => Sys2Proof.Machine.execClaim s
  | .claimReply => Sys2Proof.Machine.execClaimReply s
  | .runEnd => Sys2Proof.Machine.execRunEnd s
  | .runCancel => Sys2Proof.Machine.execRunCancel s
  | .segmentReport => Sys2Proof.Machine.execSegmentReport s
  | .lookPublish => Sys2Proof.Machine.execLookPublish s
  | .lookAssign => Sys2Proof.Machine.execLookAssign s
  | .replyKindRemoved => Sys2Proof.Machine.execReplyKindRemoved s
  | .unknownKindRequest => Sys2Proof.Machine.execUnknownKindRequest s
  | .cardQuery => Sys2Proof.Machine.execCardQuery s
  | .clipQuery => Sys2Proof.Machine.execClipQuery s
  | .stationQuery => Sys2Proof.Machine.execStationQuery s
  | .hold => Sys2Proof.Machine.execHold s
  | .forceRelease => Sys2Proof.Machine.execForceRelease s
  | .retryCopy => Sys2Proof.Machine.execRetryCopy s
  | .monitorSelect => Sys2Proof.Machine.execMonitorSelect s
  | .clearOrphans => Sys2Proof.Machine.execClearOrphans s
  | .clearAbandoned => Sys2Proof.Machine.execClearAbandoned s
  | .restart => Sys2Proof.Machine.execRestart s

end Sys2Proof.Machine
end

