-- ==== Sys2Proof/Safety.lean ====
section
/-! DEFINITION. What counts as a safe run of the part, and the properties of a state that claims are stated in. -/

namespace Sys2Proof.Machine

/-- A step that goes on: neither a fault nor a refusal. -/
def State.stepsOn (s : State) : Prop := ∃ t, step s = .next t

/-- A run of so many steps that goes on. -/
def State.runsOn (s : State) : Nat → Prop
  | 0 => True
  | n + 1 => ∃ t, step s = .next t ∧ t.runsOn n

/-- Used blocks + reserved blocks do not exceed capacity blocks (R85). -/
def Channel.fits (c : Channel) : Prop := c.fig.used + c.fig.reserved ≤ c.fig.capacity

/-- Both destination records keep within their capacity (R85). -/
def State.fits (s : State) : Prop := s.ports.dc0.fits ∧ s.ports.dc1.fits

/-- The look table has its 16 places, and slot 0 holds the neutral look at version 0 (R116, R117). -/
def State.looksSound (s : State) : Prop := s.looks.length = 16 ∧ s.looks[0]? = some (some LookRecord.neutral)

/-- The queues of messages keep within their capacities (R8, R10, R163). -/
def State.queuesBounded (s : State) : Prop :=
  s.trunk.sendQ.length ≤ 48 ∧ s.trunk.recvQ.length ≤ 32 ∧ s.pubQ.length ≤ 64

/-- The four bulk receive buffers and the eight frame-queue entries are not exceeded (R11, R130). -/
def State.buffersBounded (s : State) : Prop := s.trunk.bulk.length ≤ 4 ∧ s.grade.queue.length ≤ 8

/-- The three staging buffers (R9), the sixteen places of each work queue, its item in service with it (R89), and the 64
entries of each resend list (R111) are not exceeded. -/
def State.placesBounded (s : State) : Prop :=
  s.trunk.staging.length ≤ 3 ∧ (∀ p, (s.port p).occupied ≤ 16) ∧ ∀ i c, s.card i = some c → c.resend.length ≤ 64

/-- A fault list holds at most eight records, of the kinds of its level; it has one count for each kind, each of 16 bits,
and counts of every kind at least the records it holds (R157, R158). -/
def FaultLog.sound (level : Level) (kinds : Nat) (l : FaultLog) : Prop :=
  l.records.length ≤ 8 ∧ (∀ r ∈ l.records, r.kind.level = level)
    ∧ l.counts.length = kinds ∧ (∀ n ∈ l.counts, n ≤ 65535)
    ∧ ∀ k : FaultKind, k.level = level → l.records.countP (fun r => r.kind == k) ≤ l.counts.getD k.place 0

/-- Every fault list is sound: of the station, of each card record and of each clip. -/
def State.faultsSound (s : State) : Prop :=
  s.stationLog.sound .station 5
    ∧ ∀ i c, s.card i = some c → c.log.sound .card 7 ∧ ∀ k ∈ c.clips, k.log.sound .clip 11

/-- Of every clip, the frames seen are the frames checked, skipped and pending (R37, R149). -/
def State.framesBalance (s : State) : Prop :=
  ∀ i n k, s.clip i n = some k → k.seen = k.checked + k.skipped + k.pendingPos.length

/-- Every frame in the frame queue has a pending position in the clip that its end will be counted in. It can fail where a
card serial has come round while a frame of its earlier card was still in the queue (R40). -/
def State.framesPending (s : State) : Prop :=
  ∀ e ∈ s.grade.queue, ∀ i k, (s.holderOf e.tag = some i ∨ (e.slot = i ∧ e.state = .filling)) →
    s.clip i e.clip = some k → k.pendingPos ≠ []

/-- The targets of a card record with their columns, resend entries and claims. -/
structure TargetsSound (c : CardRecord) : Prop where
  /-- No station and no port appears twice (R42). -/
  keys : (c.targets.map Target.key).Nodup
  /-- A column has a cell for each segment (R102). -/
  columns : ∀ x ∈ c.targets, x.cells.length = c.segmentCount
  /-- A cell in SENT, MISMATCH or RESEND_LISTED belongs to a target in WRITING (R103, R110, R114). -/
  underway : ∀ x ∈ c.targets, ∀ cell ∈ x.cells,
    (cell.state = .sent ∨ cell.state = .mismatch ∨ cell.state = .resendListed) → x.state = .writing
  /-- A resend entry stands for a cell in RESEND_LISTED with its attempt (R111). -/
  listed : ∀ e ∈ c.resend, ∃ x ∈ c.targets, ∃ cell, x.key = e.target ∧ x.cells[e.segment]? = some cell
    ∧ cell.state = .resendListed ∧ cell.attempt = e.attempt
  /-- The ranked claims are of distinct stations, none of them a target (R63). -/
  claims : ∀ wanted ranked length, c.window = .opened wanted ranked length →
    ranked.Nodup ∧ ∀ n ∈ ranked, ∀ x ∈ c.targets, x.key ≠ .peer n
  /-- While a port is still to answer, no target stands on it (R45). -/
  forming : ∀ p ∈ c.forming, ∀ x ∈ c.targets, x.key ≠ .localPort p

/-- How the path of a slot and its card record go together. -/
structure CourseSound (r : SlotReader) (o : Option CardRecord) : Prop where
  /-- A record whose card has left is ABANDONED (R58). -/
  emptySlot : r.state = .empty → ∀ c, o = some c → c.state = .abandoned
  /-- A seated card has a record, and it is not ABANDONED (R21, R41). -/
  seatedSlot : r.state ≠ .empty → ∃ c, o = some c ∧ c.state ≠ .abandoned
  /-- While the index is read, the record is in INDEXING, in its first round, and has no target (R21, R41, R45). -/
  mounting : r.state = .mounting → ∀ c, o = some c →
    c.state = .indexing ∧ c.round = 1 ∧ c.waitingForRun = false ∧ c.forming = [] ∧ c.targets = [] ∧ c.resend = []
  /-- A port is still to answer only in INDEXING, before the record waits for RUN (R45, R46). -/
  forming : ∀ c, o = some c → c.forming ≠ [] → c.state = .indexing ∧ c.waitingForRun = false
  /-- A slot reads only for a record in COPYING or SETTLING (R48, R50, R112). -/
  reading : r.state = .reading → r.queue ≠ [] ∧ ∀ c, o = some c → c.state = .copying ∨ c.state = .settling
  /-- Outside READING nothing is queued and nothing waits (R29). -/
  idle : r.state ≠ .reading → r.queue = [] ∧ r.waiting = []
  /-- A claim window belongs to CLAIMING (R62, R65). -/
  window : ∀ c, o = some c → c.window ≠ .none → c.state = .claiming
  /-- A target is in WRITING only in COPYING and SETTLING, and as it stood in ABANDONED (R49, R51, R59). -/
  writing : ∀ c, o = some c → (∃ x ∈ c.targets, x.state = .writing) →
    c.state = .copying ∨ c.state = .settling ∨ c.state = .abandoned
  /-- At most one pass is requested, and only in COPYING (R48, R50). -/
  passes : ∀ c, o = some c → (r.queue ++ r.waiting).countP ReadItem.isPass ≤ if c.state = .copying then 1 else 0
  /-- A RELEASABLE or HELD record has its K verified copies and no target still to end (R51). -/
  held : ∀ c, o = some c → (c.state = .releasable ∨ c.state = .held) →
    c.k ≤ c.verifiedCount ∧ ∀ x ∈ c.targets, x.final = true
  /-- A RELEASABLE record has no source error and is not held (R51, R56). -/
  releasable : ∀ c, o = some c → c.state = .releasable → c.sourceErrors = 0 ∧ c.hold = false
  /-- The record's targets are sound. -/
  targets : ∀ c, o = some c → TargetsSound c

/-- The course of every slot is sound. -/
def State.coursesSound (s : State) : Prop := ∀ i, CourseSound (s.slot i) (s.card i)

/-- Every field of an image lies in the range of the layout table, and the presence timeout is at least twice the
presence interval (R178). -/
def imageInRange (m : Image) : Prop :=
  m.station ≤ 31 ∧ 1 ≤ m.k ∧ m.k ≤ 4 ∧ m.reportStation ≤ 31 ∧ m.defaultLook ≤ 15
    ∧ 50 ≤ m.presenceInterval ∧ m.presenceInterval ≤ 1000
    ∧ 200 ≤ m.presenceTimeout ∧ m.presenceTimeout ≤ 5000 ∧ 2 * m.presenceInterval ≤ m.presenceTimeout
    ∧ m.claimWindow ≤ 5000 ∧ 100 ≤ m.segmentIdle ∧ m.segmentIdle ≤ 5000
    ∧ 1000 ≤ m.reportTimeout ∧ m.reportTimeout ≤ 30000 ∧ 1 ≤ m.retryInterval ∧ m.retryInterval ≤ 120
    ∧ m.cadenceTolerance ≤ 255 ∧ m.clipLevel ≤ 4095 ∧ m.exposurePerMille ≤ 255 ∧ m.blackLevel ≤ 4095
    ∧ m.lookClipPerMille ≤ 255

/-- The image, once there is one, is in range (R177, R178). -/
def State.imageSound (s : State) : Prop := ∀ m, s.image = some m → imageInRange m

/-- A message stands at the head of the control receive queue with others behind it, and is of a kind (R10). -/
def State.heads (s : State) (k : Kind) (m : Message) (rest : List Message) : Prop :=
  s.trunk.recvQ = m :: rest ∧ m.code = k.code

/-- A channel holds an item: in service or in its work queue (R89). -/
def Channel.holds (c : Channel) (x : WorkItem) : Prop := x ∈ c.serving.toList ++ c.queue

/-- A slot reads an item with a block in hand, for a record (R31). -/
def State.holding (s : State) (i : SlotId) (item : ReadItem) (p : ReadProgress) (h : Hand) (c : CardRecord) : Prop :=
  (s.slot i).running = some item ∧ (s.slot i).progress = some p ∧ p.hand = some h ∧ s.card i = some c

/-- The presence table is in strictly increasing station number (R16). -/
def presenceOrdered (l : List PresenceEntry) : Prop := (l.map PresenceEntry.station).Pairwise (· < ·)

/-- A part of the state whose changes are few. -/
inductive Part where
  | looks | image | seated | presence | mode | locked | syncLost | recvQ | deferral | tx
  deriving DecidableEq, Repr

/-- The commands that take the head of the control receive queue (R10). -/
def takesMessage : Instr → Bool
  | .cardAnnounce | .claim | .claimReply | .runEnd | .runCancel | .segmentReport | .lookPublish | .lookAssign
  | .replyKindRemoved | .unknownKindRequest | .cardQuery | .clipQuery | .stationQuery | .hold | .forceRelease
  | .retryCopy | .monitorSelect | .clearOrphans | .clearAbandoned | .restart => true
  | _ => false

/-- The commands that may change a part of the state; START_RESET may change each. -/
def mayChange (p : Part) (c : Instr) : Bool :=
  match p, c with
  | _, .startReset _ _ => true
  | .looks, .lookPublish => true
  | .image, .configurationLoadEnd _ => true
  | .seated, .cardInsert _ _ | .seated, .cardRemoval _ => true
  | .presence, .messageReceived _ _ | .presence, .presenceTimeout _ => true
  | .mode, .configurationLoadEnd _ | .mode, .messageReceived _ _ | .mode, .listenTimeExpiry | .mode, .restart => true
  | .locked, .receiverLockLost | .locked, .receiverLockGained => true
  | .syncLost, .receiverLockLost | .syncLost, .stationQuery | .syncLost, .restart => true
  | .recvQ, .messageReceived _ _ => true
  | .recvQ, c => takesMessage c
  | .deferral, .messageReceived _ _ | .deferral, .messageSent | .deferral, .class3DeferralIdleExpiry
  | .deferral, .restart => true
  | .tx, .receiverLockLost | .tx, .messageReceived _ _ | .tx, .trunkIdleContend _ | .tx, .collision
  | .tx, .messageSent | .tx, .restart => true
  | _, _ => false

end Sys2Proof.Machine
end

