-- ==== Sys2Proof/Certificates/Slice0/Obligations.lean ====
section
/-! DEFINITION. The statements for the provers. Where a statement about a command gives the next state in full, it gives
the command's frame with it: every field it does not name is unchanged. -/

open Sys2Proof Sys2Proof.Machine

/-! ## Steps, resets and the image -/

/-- A step takes the command at the front of the queue and runs it on the rest. -/
def Obligations.StepRunsTheFrontCommand : Prop :=
  ∀ (c : Instr) (rest : List Instr) (s : State),
    step { s with pending := c :: rest } = exec c { s with pending := rest }

/-- With no command waiting and no entry of the presence table past the presence timeout, one millisecond passes: the
ages rise, and nothing else changes. With an entry past it, the first of them meets its PRESENCE_TIMEOUT (R17). That
an idle step is a millisecond is the model's choice (log 2). -/
def Obligations.IdleStepAgesPresence : Prop :=
  (∀ s : State, s.pending = [] → (∀ e ∈ s.trunk.presence, e.age ≤ s.cfg.presenceTimeout) →
     step s = .next { s with trunk := { s.trunk with
       presence := s.trunk.presence.map fun e => { e with age := e.age + 1 } } })
  ∧ (∀ (s : State) (before after : List PresenceEntry) (e : PresenceEntry), s.pending = [] →
       s.trunk.presence = before ++ e :: after → (∀ x ∈ before, x.age ≤ s.cfg.presenceTimeout) →
       s.cfg.presenceTimeout < e.age → step s = exec (.presenceTimeout e.station) s)

/-- Every command answers a next state, whatever the state: the part has no stop (log 1). It leaves the queue of
waiting commands as it is, and each of ten parts of the state unless it is one of the few commands that may change
that part. -/
def Obligations.EveryCommandGoesOnWithinItsFrame : Prop :=
  ∀ (c : Instr) (s : State), ∃ t, exec c s = .next t ∧ t.pending = s.pending
    ∧ (mayChange .looks c = false → t.looks = s.looks)
    ∧ (mayChange .image c = false → t.image = s.image)
    ∧ (mayChange .seated c = false → t.seated = s.seated)
    ∧ (mayChange .presence c = false → t.trunk.presence = s.trunk.presence)
    ∧ (mayChange .mode c = false → t.trunk.mode = s.trunk.mode)
    ∧ (mayChange .locked c = false → t.trunk.locked = s.trunk.locked)
    ∧ (mayChange .syncLost c = false → t.trunk.syncLost = s.trunk.syncLost)
    ∧ (mayChange .recvQ c = false → t.trunk.recvQ = s.trunk.recvQ)
    ∧ (mayChange .deferral c = false → t.trunk.deferral = s.trunk.deferral)
    ∧ (mayChange .tx c = false → t.trunk.tx = s.trunk.tx)

/-- The state after reset is the start of the load, with no card seated and no drive attached (log 6). START_RESET
takes the cards and drives as they are, gives every block its start value and rebuilds each destination record from
its port (R84, R180). -/
def Obligations.ResetsLeaveTheStartValues : Prop :=
  (State.reset.image = none ∧ State.reset.trunk.mode = .listen ∧ State.reset.trunk.listenTimer = none
     ∧ State.reset.trunk.locked = false ∧ State.reset.trunk.syncLost = false ∧ State.reset.trunk.sendQ = []
     ∧ State.reset.trunk.presence = [] ∧ State.reset.serial = 0 ∧ State.reset.pubQ = []
     ∧ State.reset.stationLog = ⟨[], [0, 0, 0, 0, 0], false⟩
     ∧ (∀ i, State.reset.card i = none ∧ (State.reset.slot i).state = .empty ∧ State.reset.seated.get i = none
         ∧ lampOf (State.reset.card i) = .off)
     ∧ (∀ p, (State.reset.port p).state = .absent ∧ (State.reset.port p).fig = ⟨0, 0, 0⟩)
     ∧ (∀ n, n < 8 → State.reset.hostedAt n = none) ∧ State.reset.pending = [])
  ∧ (∀ (drives : Two (Option DriveReport)) (cards : Four (Option Nat)) (s : State),
       ∃ t, exec (.startReset drives cards) s = .next t
         ∧ t.pending = s.pending ∧ t.image = none ∧ t.seated = cards ∧ t.trunk = State.reset.trunk
         ∧ t.serial = 0 ∧ t.stationLog = ⟨[], [0, 0, 0, 0, 0], false⟩ ∧ t.pubQ = [] ∧ t.line = []
         ∧ (∀ i, t.card i = none ∧ (t.slot i).state = .empty ∧ (t.slot i).queue = [] ∧ (t.slot i).bad = []
             ∧ (t.slot i).waiting = [] ∧ (t.slot i).tries = 0 ∧ (t.slot i).progress = none
             ∧ (t.slot i).parser = ⟨none, []⟩ ∧ (t.working.get i) = ⟨LookValues.neutral, none⟩)
         ∧ (∀ n, t.hostedAt n = none)
         ∧ t.looks = some LookRecord.neutral :: List.replicate 15 none
         ∧ ∀ p, (t.port p).serving = none ∧ (t.port p).queue = [] ∧ (t.port p).readbacks = []
             ∧ (t.port p).jobs = [] ∧ (t.port p).compare = none ∧ (t.port p).capture = none ∧ (t.port p).runs = []
             ∧ (t.port p).finishing = false ∧ (t.port p).requests = []
             ∧ (drives.get p = none → (t.port p).state = .absent ∧ (t.port p).fig = ⟨0, 0, 0⟩)
             ∧ ∀ r, drives.get p = some r →
                 (t.port p).state = .ready ∧ (t.port p).cls = some r.cls
                   ∧ (t.port p).fig = ⟨r.capacity, min r.used r.capacity, 0⟩)

/-- START_RESET empties the Grade Pipeline (R144). -/
def Obligations.StartResetEmptiesTheGradePipeline : Prop :=
  ∀ (drives : Two (Option DriveReport)) (cards : Four (Option Nat)) (s : State),
    ∃ t, exec (.startReset drives cards) s = .next t
      ∧ t.grade.queue = [] ∧ t.grade.queue.any FrameEntry.isGrading = false
      ∧ t.grade.monitored = .s0 ∧ planeBytes t.grade.shown = List.replicate 777600 0
      ∧ ∀ i, t.grade.hold.get i = none ∧ (t.grade.outbox.get i).frames = []

/-- The memory is absent, badly signed or badly summed, in this order, or its own image is built (R177), each field
from its bytes with its own clamp, the presence timeout no shorter than twice the interval (R178). The image is in
range whatever the memory holds (R178). CONFIGURATION_LOAD_END: the image, the mode, CONFIG_DEFAULTED, then the mounts
(R176, R18). -/
def Obligations.LoadEndBuildsTheImageAndMounts : Prop :=
  ((∀ memory : List (Option Byte), (∃ i, i < 32 ∧ memory.getD i none = none) →
     loadImage memory = (defaultImage, some 3))
   ∧ (∀ b : List Byte, b.length = 32 →
       (b.getD 0 0 ≠ 0xD7 → loadImage (b.map some) = (defaultImage, some 1))
       ∧ (b.getD 0 0 = 0xD7 → (b.map BitVec.toNat).sum % 256 ≠ 0 →
           loadImage (b.map some) = (defaultImage, some 2))
       ∧ (b.getD 0 0 = 0xD7 → (b.map BitVec.toNat).sum % 256 = 0 →
           loadImage (b.map some) =
             ({ station := if byteAt b 1 ≤ 31 then byteAt b 1 else 0
                k := max 1 (min 4 (byteAt b 2))
                useDc0 := decide (byteAt b 3 % 2 = 1)
                useDc1 := decide (byteAt b 3 / 2 % 2 = 1)
                fullVerify := decide (byteAt b 3 / 4 % 2 = 1)
                proxyEnable := decide (byteAt b 3 / 8 % 2 = 1)
                reportStation := min 31 (byteAt b 4)
                defaultLook := min 15 (byteAt b 5)
                presenceInterval := max 50 (min 1000 (halfAt b 6))
                presenceTimeout := max (2 * max 50 (min 1000 (halfAt b 6))) (max 200 (min 5000 (halfAt b 8)))
                claimWindow := min 5000 (halfAt b 10)
                segmentIdle := max 100 (min 5000 (halfAt b 12))
                reportTimeout := max 1000 (min 30000 (halfAt b 14))
                retryInterval := max 1 (min 120 (byteAt b 16))
                cadenceTolerance := byteAt b 17
                clipLevel := min 4095 (halfAt b 18)
                exposurePerMille := byteAt b 20
                blackLevel := min 4095 (halfAt b 21)
                lookClipPerMille := byteAt b 23 }, none))))
  ∧ (∀ memory : List (Option Byte), imageInRange (loadImage memory).1)
  ∧ (∀ (memory : List (Option Byte)) (s : State), s.image = none →
       ∃ t, exec (.configurationLoadEnd memory) s = .next t
         ∧ t.image = some (loadImage memory).1
         ∧ ((loadImage memory).1.station = 0 → t.trunk.mode = .localOnly ∧ t.trunk.listenTimer = none)
         ∧ ((loadImage memory).1.station ≠ 0 → t.trunk.mode = .listen
             ∧ t.trunk.listenTimer = some (2 * (loadImage memory).1.presenceInterval))
         ∧ ((loadImage memory).2 = none → t.stationLog = s.stationLog)
         ∧ (∀ d, (loadImage memory).2 = some d → s.stationLog = ⟨[], [0, 0, 0, 0, 0], false⟩ →
             t.stationLog = ⟨[⟨.configDefaulted, none, 0, 0, 1, BitVec.ofNat 32 d, none⟩], [0, 0, 0, 0, 1], false⟩)
         ∧ (∀ i size, s.seated.get i = some size →
             (t.slot i).state = .mounting ∧ (t.slot i).size = max 1 (min 16777216 size)
               ∧ ∃ c, t.card i = some c ∧ c.state = .indexing ∧ c.round = 1
                   ∧ c.k = (loadImage memory).1.k ∧ c.tag.station = (loadImage memory).1.station)
         ∧ (∀ i, s.seated.get i = none → t.slot i = s.slot i ∧ t.card i = s.card i)
         ∧ t.looks = s.looks ∧ t.hosted = s.hosted ∧ t.pubQ = s.pubQ)

/-! ## The trunk -/

/-- RECEIVER_LOCK_GAINED sets LOCKED, and RECEIVER_LOCK_LOST has no effect while UNLOCKED and records nothing while
the load runs (R13); otherwise the transmitter stops, the flag is set, and SYNC_LOST is counted and recorded: a new
record when the flag was clear, an extension of the newest one when it was set (R12, R156, R158). -/
def Obligations.LockFollowsTheMedium : Prop :=
  (∀ s : State,
     exec .receiverLockGained s = .next { s with trunk := { s.trunk with locked := true } }
     ∧ (s.trunk.locked = false → exec .receiverLockLost s = .next s)
     ∧ (s.trunk.locked = true → s.image = none →
         exec .receiverLockLost s = .next { s with trunk := { s.trunk with locked := false, tx := none } }))
  ∧ (∀ s : State, s.image.isSome = true → s.trunk.locked = true →
       ∃ t, exec .receiverLockLost s = .next t
         ∧ t.trunk = { s.trunk with locked := false, tx := none, syncLost := true }
         ∧ t.stationLog.counts = s.stationLog.counts.modify 0 (fun n => min 65535 (n + 1))
         ∧ (s.trunk.syncLost = false → s.stationLog.records.length < 8 →
             t.stationLog.records = s.stationLog.records ++ [⟨.syncLost, none, 0, 0, 1, 0, none⟩])
         ∧ (s.trunk.syncLost = false → 8 ≤ s.stationLog.records.length →
             t.stationLog.records = s.stationLog.records)
         ∧ (s.trunk.syncLost = true → ∀ older r newer, s.stationLog.records = older ++ r :: newer →
             r.kind = .syncLost → (∀ x ∈ newer, x.kind ≠ .syncLost) →
             t.stationLog.records = older ++ { r with last := 0, runLength := min 65535 (r.runLength + 1) } :: newer)
         ∧ t.cards = s.cards ∧ t.slots = s.slots ∧ t.ports = s.ports ∧ t.hosted = s.hosted ∧ t.looks = s.looks
         ∧ t.grade = s.grade)

/-- A message sent is a good message to every station that hears it: what the envelope writes, the receiver reads (R1
to R3). -/
def Obligations.EnvelopeReadsBack : Prop :=
  ∀ (station target : Nat) (k : Kind) (body : List Byte),
    1 ≤ station → station ≤ 31 → target ≤ 31 → body.length % 4 = 0 → body.length ≤ 65600 →
    goodMessage (envelope station k target body)
      = some (arbitrationWord k.cls station, ⟨k.code, station, target, body⟩)

/-- MESSAGE_RECEIVED: a discarded message has no effect on any state (R3, R18). A good message of another station
refreshes presence, ends the deferral, and enters the control receive queue unless that holds 32 (R4, R7, R10). Class
0 for this station is taken in SILENT, class 1 and 2 there only when broadcast, and LOCAL-ONLY keeps no presence table
(R16, R20). One for another station, one of a kind that is no request and of a wrong length, and one of an unknown
kind sent to all stations do no more than refresh presence and end the deferral (R4). An unknown kind addressed here
enters the queue where the class in its arbitration word is taken (log 18). -/
def Obligations.GoodMessageEntersTheReceiveQueue : Prop :=
  (∀ (own : Bool) (bytes : List Byte) (s : State),
     own = true ∨ s.image = none ∨ s.trunk.locked = false ∨ goodMessage bytes = none →
     exec (.messageReceived own bytes) s = .next s)
  ∧ (∀ (bytes : List Byte) (arb : Nat) (m : Message) (k : Kind) (s : State),
       s.image.isSome = true → s.trunk.locked = true → goodMessage bytes = some (arb, m) →
       Kind.ofCode m.code = some k → k ≠ .presence → k ≠ .block → m.source ≠ s.own →
       (s.mode = .listen ∨ s.mode = .run) → (m.target = 0 ∨ m.target = s.own) →
       (k.isRequest = true ∨ k.lengthAllowed (m.body.length / 4) = true) →
       exec (.messageReceived false bytes) s = .next { s with trunk := { s.trunk with
         deferral := false
         presence := refreshEntry m.source s.trunk.presence
         recvQ := if s.trunk.recvQ.length < 32 then s.trunk.recvQ ++ [m] else s.trunk.recvQ } })
  ∧ (∀ (bytes : List Byte) (arb : Nat) (m : Message) (k : Kind) (s : State),
       s.image.isSome = true → s.trunk.locked = true → goodMessage bytes = some (arb, m) →
       Kind.ofCode m.code = some k → k ≠ .presence → k ≠ .block → m.source ≠ s.own →
       k.lengthAllowed (m.body.length / 4) = true → s.trunk.recvQ.length < 32 →
       (s.mode = .silent →
         exec (.messageReceived false bytes) s = .next { s with trunk := { s.trunk with
           deferral := false
           presence := refreshEntry m.source s.trunk.presence
           recvQ := if m.target = 0 ∨ (m.target = s.own ∧ k.cls = 0) then s.trunk.recvQ ++ [m]
             else s.trunk.recvQ } })
       ∧ (s.mode = .localOnly →
         exec (.messageReceived false bytes) s = .next { s with trunk := { s.trunk with
           deferral := false
           recvQ := if m.target = 0 then s.trunk.recvQ ++ [m] else s.trunk.recvQ } }))
  ∧ (∀ (bytes : List Byte) (arb : Nat) (m : Message) (s : State),
       s.image.isSome = true → s.trunk.locked = true → goodMessage bytes = some (arb, m) → m.source ≠ s.own →
       let heard : State := { s with trunk := { s.trunk with
         deferral := false
         presence := if s.mode = .localOnly then s.trunk.presence else refreshEntry m.source s.trunk.presence } }
       ((m.code ≠ Kind.presence.code ∧ m.target ≠ 0 ∧ m.target ≠ s.own)
           ∨ (∃ k, Kind.ofCode m.code = some k ∧ k.isRequest = false ∧ k.lengthAllowed (m.body.length / 4) = false)
           ∨ (Kind.ofCode m.code = none ∧ m.target = 0) →
         exec (.messageReceived false bytes) s = .next heard)
       ∧ (Kind.ofCode m.code = none → m.target = s.own → m.target ≠ 0 →
         exec (.messageReceived false bytes) s = .next { heard with trunk := { heard.trunk with
           recvQ := if (s.mode = .listen ∨ s.mode = .run ∨ (s.mode = .silent ∧ arb < 64)) ∧ s.trunk.recvQ.length < 32
             then s.trunk.recvQ ++ [m] else s.trunk.recvQ } }))

/-- MESSAGE_RECEIVED: a PRESENCE of three words has its fields stored in its source's entry, which has age 0; the
refresh leaves the other entries and keeps the table in order (R4, R16). -/
def Obligations.PresenceIsStored : Prop :=
  (∀ (bytes : List Byte) (arb : Nat) (m : Message) (s : State),
     s.image.isSome = true → s.trunk.locked = true → goodMessage bytes = some (arb, m) →
     m.code = Kind.presence.code → m.body.length = 12 → m.source ≠ s.own → (s.mode = .listen ∨ s.mode = .run) →
     ∃ t, exec (.messageReceived false bytes) s = .next t
       ∧ t = { s with trunk := { s.trunk with deferral := false, presence := t.trunk.presence } }
       ∧ ∃ e ∈ t.trunk.presence, e.station = m.source ∧ e.age = 0 ∧ e.fields = some (readPresence m.body))
  ∧ (∀ (n : Nat) (l : List PresenceEntry),
       (∃ e ∈ refreshEntry n l, e.station = n ∧ e.age = 0)
       ∧ (∀ e ∈ l, e.station ≠ n → e ∈ refreshEntry n l)
       ∧ (presenceOrdered l → presenceOrdered (refreshEntry n l)))

/-- MESSAGE_RECEIVED: a BLOCK for an entry in RECEIVING is taken into a free buffer, and begins to wait for its
hand-over where there is no room for it (R11, R71; that the buffer is the free one of the lowest number is the model's
choice, log 36, and so are the line of those who wait, log 8, and that the BLOCK's other flag bits are ignored, log
57). Without a free buffer it is discarded, and without an entry ignored (R11). In SILENT and LOCAL-ONLY it is not
taken (R20). -/
def Obligations.BlockIsTakenForAReceivingEntry : Prop :=
  ∀ (bytes : List Byte) (arb : Nat) (m : Message) (s : State),
    s.image.isSome = true → s.trunk.locked = true → goodMessage bytes = some (arb, m) →
    m.code = Kind.block.code → m.body.length = 65600 → m.source ≠ s.own →
    ((s.mode = .listen ∨ s.mode = .run) → (m.target = 0 ∨ m.target = s.own) →
      (∀ n b, s.freeBuffer = some n → readBlock m n = some b → (s.receiving b.tag).isSome = true →
        let taken : State := { s with trunk := { s.trunk with
          deferral := false, presence := refreshEntry m.source s.trunk.presence, bulk := s.trunk.bulk ++ [b] } }
        exec (.messageReceived false bytes) s = .next { taken with
          line := if taken.mayEnter (.bulk n) = true then s.line else taken.lineWith (.bulk n) })
      ∧ ((s.freeBuffer = none ∨ (s.receiving (tagAt m.body)).isNone = true) →
        exec (.messageReceived false bytes) s = .next { s with trunk := { s.trunk with
          deferral := false, presence := refreshEntry m.source s.trunk.presence } }))
    ∧ (s.mode = .silent → exec (.messageReceived false bytes) s = .next { s with trunk := { s.trunk with
        deferral := false, presence := refreshEntry m.source s.trunk.presence } })
    ∧ (s.mode = .localOnly → exec (.messageReceived false bytes) s = .next { s with trunk := { s.trunk with
        deferral := false } })

/-- MESSAGE_RECEIVED: a message with this station's own number as its source moves the station to SILENT (R19). A
record waiting in INDEXING for RUN goes to COPYING with its local targets, whose first pass begins; one in CLAIMING
has its window closed; one in SHORT stops its retry timer (R47). The premises on the slot and the round of the waiting
record rule out states that no run reaches. -/
def Obligations.DuplicateNumberSilencesTheStation : Prop :=
  ∀ (bytes : List Byte) (arb : Nat) (m : Message) (s : State),
    s.image.isSome = true → s.trunk.locked = true → goodMessage bytes = some (arb, m) → m.source = s.own →
    (s.mode = .listen ∨ (s.mode = .run ∧ s.trunk.tx = none)) →
    ∃ t, exec (.messageReceived false bytes) s = .next t
      ∧ t.trunk.mode = .silent ∧ t.trunk.sendQ = [] ∧ t.trunk.staging = [] ∧ t.trunk.tx = none
      ∧ t.trunk.listenTimer = none ∧ t.trunk.presenceTimer = none ∧ t.pubQ = []
      ∧ t.stationLog.counts = s.stationLog.counts.modify 1 (fun n => min 65535 (n + 1))
      ∧ (∀ i c, s.card i = some c → c.state = .short →
          ∃ c', t.card i = some c' ∧ c'.state = .short ∧ c'.retryTimer = none)
      ∧ (∀ i c, s.card i = some c → c.state = .claiming →
          ∃ c', t.card i = some c' ∧ c'.state ≠ .claiming ∧ c'.window = .none)
      ∧ (∀ i c, s.card i = some c → c.state = .indexing → c.waitingForRun = true →
          ∃ c', t.card i = some c' ∧ c'.state ≠ .indexing ∧ c'.waitingForRun = false
            ∧ ((s.slot i).state = .ready → c.round = 1 →
                ((∃ x ∈ c.targets, x.state = .pending) ∨ c.parserHolds = true) →
                c'.state = .copying ∧ (t.slot i).running = some .firstPass
                  ∧ c'.targets.map (fun x => (x.key, x.state)) =
                      c.targets.map fun x => (x.key, if x.state = .pending then .writing else x.state)))
      ∧ t.looks = s.looks ∧ t.hosted = s.hosted ∧ t.trunk.presence = s.trunk.presence

/-- The transmitter's choice at an idle (R6, R7, R15), and TRUNK_IDLE_CONTEND: a lower word wins over this station's,
which otherwise begins to send; a station that may not contend, or has nothing to offer, does not (R5, R6). -/
def Obligations.LowestWordWinsTheTrunk : Prop :=
  (∀ s : State,
     (∀ before m after, s.trunk.sendQ = before ++ m :: after → m.kind.cls ≤ 2 →
       (∀ x ∈ before, x.kind.cls ≠ m.kind.cls) → (∀ x ∈ s.trunk.sendQ, m.kind.cls ≤ x.kind.cls) →
       s.offer = some (.control m.kind.cls,
         if m.kind = .presence then { m with body := presenceBody s } else m))
     ∧ (s.trunk.sendQ = [] →
         (∀ m rest, s.pubQ = m :: rest → s.offer = some (.publication, m))
         ∧ (s.pubQ = [] → ∀ b rest, s.trunk.staging = b :: rest →
             s.offer = if s.trunk.deferral then none else some (.staging, ⟨.block, b.target, blockBody b⟩))
         ∧ (s.pubQ = [] → s.trunk.staging = [] → s.offer = none)))
  ∧ (∀ (others : Option Byte) (s : State),
       ((s.trunk.locked = false ∨ s.mode ≠ .run ∨ s.offer = none) →
         exec (.trunkIdleContend others) s = .next s)
       ∧ (s.trunk.locked = true → s.mode = .run → s.trunk.tx = none → ∀ source m, s.offer = some (source, m) →
           ((∃ o, others = some o ∧ o.toNat < arbitrationWord m.kind.cls s.own) →
             exec (.trunkIdleContend others) s = .next s)
           ∧ ((∀ o, others = some o → arbitrationWord m.kind.cls s.own ≤ o.toNat) →
             exec (.trunkIdleContend others) s = .next { s with trunk := { s.trunk with
               tx := some ⟨source, envelope s.own m.kind m.target m.body⟩ } })))

/-- MESSAGE_SENT: the sent message leaves its source (R1, R6, R7), and a send that leaves the publication queue at 16
queues a summary for a pending station (R166). COLLISION abandons the message, which stays where it was (R5);
CLASS3_DEFERRAL_IDLE_EXPIRY ends the deferral (R7), in either lock state by the model's choice (log 52). -/
def Obligations.SentMessageLeavesItsSource : Prop :=
  (∀ (bytes : List Byte) (s : State),
     (∀ before m after, s.trunk.tx = some ⟨.control m.kind.cls, bytes⟩ →
       s.trunk.sendQ = before ++ m :: after → (∀ x ∈ before, x.kind.cls ≠ m.kind.cls) → m.kind ≠ .cardAnnounce →
       exec .messageSent s = .next { s with trunk := { s.trunk with tx := none, sendQ := before ++ after } })
     ∧ (∀ m rest, s.trunk.tx = some ⟨.publication, bytes⟩ → s.pubQ = m :: rest → rest.length ≠ 16 →
         exec .messageSent s = .next { s with trunk := { s.trunk with tx := none }, pubQ := rest })
     ∧ (∀ b rest, s.trunk.tx = some ⟨.staging, bytes⟩ → s.trunk.staging = b :: rest → b.lastOfSegment = false →
         exec .messageSent s = .next { s with trunk := { s.trunk with
           tx := none, staging := rest, deferral := true } }))
  ∧ (∀ (bytes : List Byte) (s : State) (m : OutMessage) (rest : List OutMessage),
       s.trunk.tx = some ⟨.publication, bytes⟩ → s.mode = .run → s.pubQ = m :: rest → rest.length = 16 →
       s.stationLog.pending = true →
       ∃ t, exec .messageSent s = .next t ∧ t.stationLog = { s.stationLog with pending := false }
         ∧ t.pubQ.take 16 = rest
         ∧ t.pubQ[16]? = some ⟨.faultSummary, s.cfg.reportStation, summaryBody s .station s.stationLog 2⟩)
  ∧ (∀ s : State,
       exec .collision s = .next { s with trunk := { s.trunk with tx := none } }
       ∧ (s.trunk.tx = none →
           exec .class3DeferralIdleExpiry s = .next { s with trunk := { s.trunk with deferral := false } }))

/-- MESSAGE_SENT: the sending of a CARD_ANNOUNCE opens the claim window of its record, empty (R62, R63); the sending
of the last BLOCK of a segment starts the report timer in each cell it is for (R106). -/
def Obligations.SentMessageStartsItsTimers : Prop :=
  (∀ (bytes : List Byte) (s : State) (before after : List OutMessage) (m : OutMessage) (i : SlotId)
     (c : CardRecord) (wanted : Nat),
     s.trunk.tx = some ⟨.control 1, bytes⟩ → s.trunk.sendQ = before ++ m :: after →
     (∀ x ∈ before, x.kind.cls ≠ 1) → m.kind = .cardAnnounce → s.holderOf (tagAt m.body) = some i →
     s.card i = some c → c.state = .claiming → c.window = .unsent wanted → c.round = byteAt m.body 4 →
     exec .messageSent s = .next { s with
       trunk := { s.trunk with tx := none, sendQ := before ++ after }
       cards := s.cards.set i (some { c with
         window := .opened wanted [] (if s.cfg.claimWindow = 0 then 2000 else s.cfg.claimWindow) }) })
  ∧ (∀ (bytes : List Byte) (s : State) (b : StagedBlock) (rest : List StagedBlock) (i : SlotId) (c : CardRecord)
       (n : Nat) (x : Target),
       s.trunk.tx = some ⟨.staging, bytes⟩ → s.trunk.staging = b :: rest → b.lastOfSegment = true →
       s.holderOf b.tag = some i → s.card i = some c → c.state ≠ .abandoned →
       c.target (.peer n) = some x → (b.target = 0 ∨ b.target = n) →
       x.cells[b.index / 256]? = some ⟨.sent, b.attempt, none⟩ →
       ∃ t c' x', exec .messageSent s = .next t ∧ t.card i = some c' ∧ c'.target (.peer n) = some x'
         ∧ x'.cells[b.index / 256]? = some ⟨.sent, b.attempt, some s.cfg.reportTimeout⟩
         ∧ t.trunk = { s.trunk with tx := none, staging := rest, deferral := true })

/-- PRESENCE_INTERVAL_EXPIRY: a PRESENCE is queued, unless one waits or the queue is full, and the timer restarts (R8,
R14); the figures that a PRESENCE carries (R15). -/
def Obligations.PresenceIsQueuedAtEachInterval : Prop :=
  (∀ (n : Nat) (s : State), s.trunk.presenceTimer = some n → s.mode = .run →
     exec .presenceIntervalExpiry s = .next { s with trunk := { s.trunk with
       presenceTimer := some s.cfg.presenceInterval
       sendQ := if s.trunk.sendQ.length < 48 ∧ (∀ m ∈ s.trunk.sendQ, m.kind ≠ .presence)
         then s.trunk.sendQ ++ [⟨.presence, 0, []⟩] else s.trunk.sendQ } })
  ∧ (∀ s : State, s.hosted.length = 8 → (s.port .dc0).freeBlocks < 4294967296 →
       (s.port .dc1).freeBlocks < 4294967296 →
       (presenceBody s).length = 12
       ∧ readPresence (presenceBody s) =
         { mode := s.mode.code, freeHosted := s.hosted.countP Option.isNone,
           cards := (SlotId.inOrder.filter fun i => (s.card i).isSome).length,
           dc0Free := BitVec.ofNat 32 (if (s.port .dc0).state = .ready then (s.port .dc0).freeBlocks else 0),
           dc1Free := BitVec.ofNat 32 (if (s.port .dc1).state = .ready then (s.port .dc1).freeBlocks else 0) })

/-- PRESENCE_TIMEOUT of an entry whose age has passed the presence timeout: the entry is removed; targets on the lost
station are dropped, and their station sent RUN_CANCEL; entries for its cards are freed or orphaned, with an
ORPHANED_RUN counted for each; its ranked claims are struck (R17, R64, R79, R80). An entry that has been refreshed
meanwhile stays (R17). What an orphaned entry still owed to report is not queued (log 50). -/
def Obligations.LostStationIsSettled : Prop :=
  (∀ (n : Nat) (s : State), (∃ e ∈ s.trunk.presence, e.station = n ∧ s.cfg.presenceTimeout < e.age) →
     ∃ t, exec (.presenceTimeout n) s = .next t
       ∧ t.trunk.presence = s.trunk.presence.filter (fun e => e.station != n)
       ∧ (∀ i c, s.card i = some c → c.state = .abandoned → t.card i = some c)
       ∧ (∀ i c x, s.card i = some c → c.state ≠ .abandoned → c.target (.peer n) = some x → x.active = true →
           (∃ c', t.card i = some c' ∧ ∀ x', c'.target (.peer n) = some x' → x'.state = .dropped)
           ∧ (s.mode ≠ .silent → s.mode ≠ .localOnly → s.trunk.sendQ.length ≤ 40 →
               ⟨.runCancel, n, runCancelBody c.tag .targetDropped⟩ ∈ t.trunk.sendQ))
       ∧ (∀ i c wanted ranked len, s.card i = some c → c.state = .claiming → c.window = .opened wanted ranked len →
           n ∈ ranked → (∀ x ∈ c.targets, x.key ≠ .peer n) →
           (s.cfg.claimWindow ≠ 0 ∨ (ranked.filter fun m => m != n).length < wanted) →
           t.card i = some { c with window := .opened wanted (ranked.filter fun m => m != n) len })
       ∧ (∀ place e, place < 8 → s.hostedAt place = some e →
           (e.tag.station = n → e.state = .reserved → t.hostedAt place = none)
           ∧ (e.tag.station = n → e.state = .receiving → t.hostedAt place =
               some { e with state := .orphaned, opened := none, owed := [] })
           ∧ (e.tag.station ≠ n ∨ (e.state ≠ .reserved ∧ e.state ≠ .receiving) → t.hostedAt place = some e))
       ∧ (let orphans := (s.hosted.take 8).countP fun o => o.any fun e => e.tag.station == n && e.state == .receiving
          (orphans = 0 → t.stationLog = s.stationLog)
          ∧ (0 < orphans →
              t.stationLog.counts = s.stationLog.counts.modify 3 fun m => min 65535 (m + orphans)))
       ∧ t.looks = s.looks ∧ t.trunk.mode = s.trunk.mode)
  ∧ (∀ (n : Nat) (s : State), (∀ e ∈ s.trunk.presence, e.station = n → e.age ≤ s.cfg.presenceTimeout) →
       exec (.presenceTimeout n) s = .next s)

/-- LISTEN_TIME_EXPIRY: the station enters RUN, queues its first PRESENCE, and lets waiting records go (R14, R18,
R47). -/
def Obligations.ListenTimeEndsInRun : Prop :=
  ∀ (n : Nat) (s : State), s.mode = .listen → s.trunk.listenTimer = some n → s.trunk.locked = true →
    ∃ t, exec .listenTimeExpiry s = .next t
      ∧ t.trunk.mode = .run ∧ t.trunk.listenTimer = none
      ∧ t.trunk.presenceTimer = some s.cfg.presenceInterval
      ∧ (s.trunk.sendQ.length < 48 → (∀ m ∈ s.trunk.sendQ, m.kind ≠ .presence) →
          ⟨.presence, 0, []⟩ ∈ t.trunk.sendQ)
      ∧ (∀ i c, s.card i = some c → c.state = .indexing → c.waitingForRun = true →
          ∃ c', t.card i = some c' ∧ c'.waitingForRun = false ∧ c'.state ≠ .indexing
            ∧ (s.trunk.presence ≠ [] → c'.state = .claiming ∧ c'.round = c.round))
      ∧ (∀ i c, s.card i = some c → c.waitingForRun = false → t.card i = some c)
      ∧ t.looks = s.looks ∧ t.hosted = s.hosted ∧ t.trunk.presence = s.trunk.presence

/-! ## Slots and card records -/

/-- Each lamp shows its record's state, a blink restarts lit at each change of state, and LAMP_BLINK_TOGGLE turns a
blinking lamp over and leaves every other as it is (R44). That a blink starts lit is log 17. -/
def Obligations.LampShowsTheState : Prop :=
  (lampOf none = .off
   ∧ ∀ c : CardRecord,
     ((c.state = .indexing ∨ c.state = .claiming ∨ c.state = .copying ∨ c.state = .settling) →
       lampOf (some c) = .amber)
     ∧ ((c.state = .short ∨ c.state = .held) → lampOf (some c) = .amberBlink c.lampLit)
     ∧ (c.state = .releasable → lampOf (some c) = .green)
     ∧ (c.state = .overridden → lampOf (some c) = .greenBlink c.lampLit)
     ∧ (c.state = .abandoned → lampOf (some c) = .red)
     ∧ ∀ st, (c.enter st).state = st ∧ (c.enter st).lampLit = true)
  ∧ (∀ (i : SlotId) (s : State),
       (s.card i = none → exec (.lampBlinkToggle i) s = .next s)
       ∧ ∀ c, s.card i = some c →
         ((c.state = .short ∨ c.state = .held ∨ c.state = .overridden) →
           exec (.lampBlinkToggle i) s = .next { s with
             cards := s.cards.set i (some { c with lampLit := !c.lampLit }) })
         ∧ (¬ (c.state = .short ∨ c.state = .held ∨ c.state = .overridden) →
           exec (.lampBlinkToggle i) s = .next s))

/-- CARD_INSERT: a new tag that no other record holds, a record reset, a slot in MOUNTING; during the load the card
only waits, seated (R21, R40, R41, R176). -/
def Obligations.InsertMountsACardUnderANewTag : Prop :=
  ∀ (i : SlotId) (size : Nat) (s : State), (s.slot i).state = .empty → s.seated.get i = none →
    (s.image = none →
      exec (.cardInsert i size) s = .next { s with seated := s.seated.set i (some size) })
    ∧ (s.image.isSome = true → ∃ t c, exec (.cardInsert i size) s = .next t
      ∧ t.seated = s.seated.set i (some size) ∧ t.card i = some c
      ∧ c.state = .indexing ∧ c.tag.station = s.own ∧ c.k = s.cfg.k ∧ c.round = 1
      ∧ c.roll = List.replicate 8 0x20 ∧ c.targets = [] ∧ c.excluded = [] ∧ c.clips = [] ∧ c.sourceErrors = 0
      ∧ c.hold = false ∧ c.log = ⟨[], [0, 0, 0, 0, 0, 0, 0], false⟩
      ∧ (t.slot i).state = .mounting ∧ (t.slot i).size = max 1 (min 16777216 size) ∧ (t.slot i).bad = []
      ∧ (t.slot i).queue = [] ∧ (t.slot i).tries = 0
      ∧ (∀ j c', j ≠ i → s.card j = some c' → c'.tag.serial ≠ c.tag.serial)
      ∧ ((∀ j c', j ≠ i → s.card j = some c' → c'.tag.serial ≠ s.serial) → c.tag.serial = s.serial)
      ∧ t.serial = c.tag.serial + 1
      ∧ (∀ j, j ≠ i → t.card j = s.card j ∧ t.slot j = s.slot j)
      ∧ t.trunk = s.trunk ∧ t.looks = s.looks ∧ t.hosted = s.hosted ∧ t.grade = s.grade
      ∧ t.stationLog = s.stationLog ∧ t.pubQ = s.pubQ)

/-- CARD_REMOVAL: the slot becomes EMPTY; a record in RELEASABLE or OVERRIDDEN becomes EMPTY, and one in another state
is abandoned, keeping what R59 lists, its clip table and fault lists with it (R22, R58, R59). A slot in READING frees
its staging buffers unsent, but for one whose BLOCK is being transmitted, which has no owner then (R22; logs 33, 37).
Its FILLING frame leaves the frame queue and is counted pixel-skipped (R22). The reservations of the record's LOCAL
targets return (R58, R87), but for a first write in service, whose block stays reserved until it completes (log 11). A
port with nothing in service has an empty queue: the premise rules out states that no run reaches. -/
def Obligations.RemovalSettlesTheRecord : Prop :=
  ∀ (i : SlotId) (c : CardRecord) (s : State), (s.slot i).state ≠ .empty → s.card i = some c →
    ∃ t, exec (.cardRemoval i) s = .next t
      ∧ t.seated.get i = none ∧ (t.slot i).state = .empty ∧ (t.slot i).queue = []
      ∧ (t.slot i).waiting = [] ∧ (t.slot i).progress = none ∧ (t.slot i).parser.unit = none
      ∧ ((s.slot i).state ≠ .reading → t.trunk.staging = s.trunk.staging)
      ∧ ((s.slot i).state = .reading →
          ((∀ x, s.trunk.tx = some x → x.source ≠ .staging) →
            t.trunk.staging = s.trunk.staging.filter fun b => b.owner != some i)
          ∧ (∀ x b rest, s.trunk.tx = some x → x.source = .staging → s.trunk.staging = b :: rest →
              t.trunk.staging = (if b.owner = some i then { b with owner := none } else b) ::
                rest.filter fun b => b.owner != some i))
      ∧ t.grade.queue = s.grade.queue.filter (fun e => !(e.slot == i && e.state == .filling))
      ∧ (∀ p x run r, c.state ≠ .abandoned → x ∈ c.targets → x.key = .localPort p → x.run = some run →
          (∀ y ∈ c.targets, y.key = .localPort p → y = x) →
          ((s.port p).serving = none → (s.port p).queue = []) →
          (s.port p).runs.find? (fun r => r.id == run) = some r →
          ((∀ b a w d, (s.port p).serving = some (.write run b a w d) → b ∈ r.written) →
            (t.port p).fig = { (s.port p).fig with reserved := (s.port p).fig.reserved - r.reservation })
          ∧ (∀ b a w d, (s.port p).serving = some (.write run b a w d) → b ∉ r.written → 1 ≤ r.reservation →
              (t.port p).fig = { (s.port p).fig with reserved := (s.port p).fig.reserved - (r.reservation - 1) }))
      ∧ ((c.state = .releasable ∨ c.state = .overridden) → t.card i = none)
      ∧ (c.state ≠ .releasable → c.state ≠ .overridden → c.state ≠ .abandoned →
          ∃ c', t.card i = some c' ∧ c'.state = .abandoned ∧ c'.tag = c.tag ∧ c'.roll = c.roll ∧ c'.k = c.k
            ∧ c'.round = c.round ∧ c'.blockCount = c.blockCount ∧ c'.segmentCount = c.segmentCount
            ∧ c'.sourceErrors = c.sourceErrors ∧ c'.hold = c.hold
            ∧ c'.targets.map (fun x => (x.key, x.state, x.roundFormed))
                = c.targets.map (fun x => (x.key, x.state, x.roundFormed))
            ∧ c'.resend = [] ∧ c'.window = .none ∧ c'.retryTimer = none
            ∧ c'.log.counts = c.log.counts.modify 6 (fun n => min 65535 (n + 1))
            ∧ c'.log.records = c.log.records ++ (if c.log.records.length < 8
                then [⟨.cardRemovedEarly, none, 0, 0, 1, BitVec.ofNat 32 c.verifiedCount, none⟩] else [])
            ∧ ((∀ e ∈ s.grade.queue, e.slot = i → e.state ≠ .filling) → c'.clips = c.clips)
            ∧ (∀ before e after, s.grade.queue = before ++ e :: after → e.slot = i → e.state = .filling →
                (∀ y ∈ before, y.slot = i → y.state ≠ .filling) →
                (∀ n, n ≠ e.clip → c'.clips[n]? = c.clips[n]?)
                ∧ ∀ k, c.clips[e.clip]? = some k → ∃ k' more, c'.clips[e.clip]? = some k'
                    ∧ k'.skipped = k.skipped + 1 ∧ k'.pendingPos = k.pendingPos.dropLast ∧ k'.seen = k.seen
                    ∧ k'.checked = k.checked ∧ k'.assigned = k.assigned ∧ k'.latched = k.latched
                    ∧ k'.log.records = k.log.records ++ more)
            ∧ ((∃ x ∈ c.targets, x.isPeer = true ∧ x.active = true) → s.takesControl = true →
                ⟨.runCancel, 0, runCancelBody c.tag .cardRemoved⟩ ∈ t.trunk.sendQ))
      ∧ t.looks = s.looks ∧ t.hosted = s.hosted

/-- BLOCK_READ_TRY_END: a failure before the third is tried again (R23); a block read is held with its CRC, to be
delivered, and a copy's block begins to wait where a receiver has no room (R30, R31, R100; the line of those who wait
is the model's choice, log 8); the third failure makes a bad-source block: zeros, counted, recorded against its clip
or the card, and entered in the bad-block set while that holds fewer than 64 (R23, R24). That block 0 belongs to the
lowest clip whose range contains it, as any block does, is log 32. -/
def Obligations.ReadTryEndsByItsCount : Prop :=
  (∀ (i : SlotId) (s : State), (s.slot i).tries < 2 →
     ((s.slot i).state = .mounting
       ∨ ((s.slot i).state = .reading ∧ ∃ p, (s.slot i).progress = some p ∧ p.hand = none)) →
     exec (.blockReadTryEnd i none) s = .next { s with
       slots := s.slots.set i { s.slot i with tries := (s.slot i).tries + 1 } })
  ∧ (∀ (i : SlotId) (d : List Byte) (p : ReadProgress) (item : ReadItem) (rest : List ReadItem) (s : State),
       (s.slot i).state = .reading → (s.slot i).queue = item :: rest → (s.slot i).progress = some p →
       p.hand = none →
       let held : State := { s with slots := s.slots.set i { s.slot i with
         tries := 0, progress := some { p with hand := some ⟨p.next, d, blockCrc d, false⟩ } } }
       exec (.blockReadTryEnd i (some d)) s = .next { held with
         line := if item.isCompare = true ∨ held.mayEnter (.slot i) = true then s.line
           else held.lineWith (.slot i) })
  ∧ (∀ (i : SlotId) (p : ReadProgress) (item : ReadItem) (rest : List ReadItem) (c : CardRecord) (s : State),
       (s.slot i).state = .reading → (s.slot i).queue = item :: rest → (s.slot i).progress = some p →
       p.hand = none → (s.slot i).tries = 2 → s.card i = some c →
       ∃ t c', exec (.blockReadTryEnd i none) s = .next t
         ∧ (t.slot i).progress = some { p with hand := some ⟨p.next, [], blockCrc [], true⟩ }
         ∧ (t.slot i).tries = 0
         ∧ (t.slot i).bad = (if (s.slot i).bad.length < 64 then insertSorted p.next (s.slot i).bad
             else (s.slot i).bad)
         ∧ t.card i = some c' ∧ c'.sourceErrors = min 65535 (c.sourceErrors + 1)
         ∧ ((∀ k ∈ c.clips, k.contains p.next = false) →
             c'.log.counts = c.log.counts.modify 2 (fun n => min 65535 (n + 1)) ∧ c'.clips = c.clips)
         ∧ (∀ before k after, c.clips = before ++ k :: after → k.contains p.next = true →
             (∀ x ∈ before, x.contains p.next = false) → c'.log = c.log
               ∧ (c'.clips[before.length]?).map (fun x => x.log.counts)
                   = some (k.log.counts.modify 8 (fun n => min 65535 (n + 1)))))

/-- BLOCK_READ_TRY_END in MOUNTING: the index is taken, or the mount is opaque (R25 to R28). The third failure of
block 0 is an opaque mount too: a source error, counted against the card, block 0 in the bad-block set, and NO_INDEX
(R23 to R25). Either way the LOCAL targets are formed: each used port that is READY with free blocks for the used
range reserves it and becomes a target, DC0 first (R45, R85). Then the record leaves INDEXING (R46): with no peer copy
wanted, with no station to be heard or outside LISTEN and RUN it is copied, in RUN it claims, in LISTEN it waits. A
copy without a target and without a frame to parse ends SHORT at once (R32, R50 to R52). A port that finishes a warm
restart makes the record wait in INDEXING for its answer, while the other port answers at once (R182; log 14). The
premises on the record rule out states that no run reaches: StepsKeepTheCourseOfRecords has them as invariants. -/
def Obligations.IndexIsTakenFromBlockZero : Prop :=
  (∀ (i : SlotId) (d : List Byte) (c : CardRecord) (s : State),
     (s.slot i).state = .mounting → s.card i = some c →
     ∃ t c', exec (.blockReadTryEnd i (some d)) s = .next t ∧ t.card i = some c' ∧ c'.tag = c.tag
       ∧ (t.slot i).state ≠ .mounting ∧ c'.segmentCount = (c'.blockCount + 255) / 256
       ∧ (hasSignature (blockBytes d) = false →
           c'.noIndex = true ∧ c'.roll = List.replicate 8 0x20 ∧ c'.blockCount = (s.slot i).size ∧ c'.clips = []
             ∧ c'.log.counts[0]? = (c.log.counts[0]?).map (fun n => min 65535 (n + 1)))
       ∧ (hasSignature (blockBytes d) = true →
           c'.noIndex = false ∧ c'.roll = slice (blockBytes d) 4 8
             ∧ c'.clipsTruncated = decide (512 < clipCountOf (blockBytes d))
             ∧ c'.blockCount = usedRange (s.slot i).size
                 ((List.range (min (clipCountOf (blockBytes d)) 2047)).map
                   (indexClip (blockBytes d) s.cfg.defaultLook))
             ∧ c'.clips = ((List.range (min (clipCountOf (blockBytes d)) 2047)).map
                 (indexClip (blockBytes d) s.cfg.defaultLook)).take 512))
  ∧ (∀ (i : SlotId) (c : CardRecord) (s : State),
       (s.slot i).state = .mounting → (s.slot i).tries = 2 → s.card i = some c → c.clips = [] →
       ∃ t c', exec (.blockReadTryEnd i none) s = .next t ∧ t.card i = some c' ∧ c'.tag = c.tag
         ∧ (t.slot i).state ≠ .mounting ∧ c'.noIndex = true ∧ c'.roll = List.replicate 8 0x20
         ∧ c'.blockCount = (s.slot i).size ∧ c'.segmentCount = (c'.blockCount + 255) / 256 ∧ c'.clips = []
         ∧ c'.sourceErrors = min 65535 (c.sourceErrors + 1)
         ∧ c'.log.counts[0]? = (c.log.counts[0]?).map (fun n => min 65535 (n + 1))
         ∧ c'.log.counts[2]? = (c.log.counts[2]?).map (fun n => min 65535 (n + 1))
         ∧ (t.slot i).bad = (if (s.slot i).bad.length < 64 then insertSorted 0 (s.slot i).bad
             else (s.slot i).bad))
  ∧ (∀ (i : SlotId) (data : Option (List Byte)) (c : CardRecord) (s : State),
       (s.slot i).state = .mounting → (data.isSome = true ∨ (s.slot i).tries = 2) → s.card i = some c →
       c.state = .indexing → c.round = 1 → c.targets = [] → (s.slot i).waiting = [] → 1 ≤ c.k →
       (∀ p, s.uses p = true → (s.port p).finishing = false) →
       ∃ t c', exec (.blockReadTryEnd i data) s = .next t ∧ t.card i = some c'
         ∧ let granted := fun p => s.uses p && (s.port p).state == .ready
             && decide (c'.blockCount ≤ (s.port p).fig.capacity - (s.port p).fig.used - (s.port p).fig.reserved)
           let wanted := min 3 (c.k - c'.targets.length)
           let copied := wanted = 0 ∨ s.mode = .silent ∨ s.mode = .localOnly ∨ (s.mode = .run ∧ s.trunk.presence = [])
           c'.targets.map Target.key = ([.dc0, .dc1].filter granted).map TargetKey.localPort
           ∧ (∀ p, granted p = false → t.port p = s.port p)
           ∧ (∀ p, granted p = true → ∃ x run, c'.target (.localPort p) = some x ∧ x.run = some run
               ∧ x.roundFormed = 1 ∧ x.cells = List.replicate c'.segmentCount ⟨.notSent, 1, none⟩
               ∧ t.port p = { s.port p with
                   fig := { (s.port p).fig with reserved := (s.port p).fig.reserved + c'.blockCount }
                   runs := (s.port p).runs ++ [⟨run, .card i c.tag, c'.blockCount, [], false⟩] })
           ∧ (copied → (c'.targets ≠ [] ∨ c'.parserHolds = true) → c'.state = .copying
               ∧ (t.slot i).running = some .firstPass ∧ ∀ x ∈ c'.targets, x.state = .writing)
           ∧ (copied → c'.targets = [] → c'.parserHolds = false → c'.state = .short ∧ (t.slot i).state = .ready)
           ∧ (¬ copied → (∀ x ∈ c'.targets, x.state = .pending) ∧ (t.slot i).state = .ready
               ∧ (s.mode = .listen → c'.state = .indexing ∧ c'.waitingForRun = true)
               ∧ (s.mode = .run → c'.state = .claiming ∧ (s.takesControl = true → c'.window = .unsent wanted
                   ∧ t.trunk.sendQ = s.trunk.sendQ ++ [⟨.cardAnnounce, 0, announceBody c' wanted⟩]))))
  ∧ (∀ (i : SlotId) (data : Option (List Byte)) (c : CardRecord) (s : State),
       (s.slot i).state = .mounting → (data.isSome = true ∨ (s.slot i).tries = 2) → s.card i = some c →
       c.targets = [] → (∃ p, s.uses p = true ∧ (s.port p).finishing = true) →
       ∃ t c', exec (.blockReadTryEnd i data) s = .next t ∧ t.card i = some c'
         ∧ let asked := fun p => s.uses p && (s.port p).finishing
           let granted := fun p => s.uses p && !(s.port p).finishing && (s.port p).state == .ready
             && decide (c'.blockCount ≤ (s.port p).fig.capacity - (s.port p).fig.used - (s.port p).fig.reserved)
           c'.state = c.state ∧ (t.slot i).state = .ready ∧ c'.forming = [.dc0, .dc1].filter asked
           ∧ c'.targets.map Target.key = ([.dc0, .dc1].filter granted).map TargetKey.localPort
           ∧ (∀ x ∈ c'.targets, x.state = .pending)
           ∧ ∀ p, (asked p = true → t.port p = { s.port p with requests := (s.port p).requests ++ [.card i] })
               ∧ (granted p = true → (t.port p).fig =
                   { (s.port p).fig with reserved := (s.port p).fig.reserved + c'.blockCount })
               ∧ (asked p = false → granted p = false → t.port p = s.port p))

/-- BLOCK_DELIVER: while a copy receiver has no room, the pass holds its block and waits in line (R31); with room, one
BLOCK is staged if a peer receives, each port's queue gets the block write, and the read goes on to the next block
(R30, R31, R33, R34). One that begins to wait comes behind all who wait, and behind those who hold something and have
lost their room before it (R9). There is room, for the first in line, when each port that receives is READY and has a
place among its sixteen, and one of the three staging buffers is free for the peers (R9, R83, R89). A local resend
first brings its settle wait, and its write where another place is left (R34, R98). That places are kept for those
ahead in one line is the model's choice (log 8), and so is the moment at which the settle wait enters (log 9); that a
staging buffer is claimed and filled in one step is log 10. -/
def Obligations.BlockGoesToAllItsReceivers : Prop :=
  (∀ (i : SlotId) (item : ReadItem) (p : ReadProgress) (h : Hand) (c : CardRecord) (s : State),
     s.holding i item p h c → item.isCompare = false → s.mayEnter (.slot i) = false →
     exec (.blockDeliver i) s = .next { s with line := s.lineWith (.slot i) })
  ∧ (∀ (r : Requester) (s : State),
       (r ∈ s.line → s.lineWith r = s.line)
       ∧ (r ∉ s.line → ∃ lost, s.lineWith r = s.line ++ lost ++ [r]
         ∧ ∀ x, x ∈ lost ↔ x ∈ s.bearers ∧ x ≠ r ∧ x ∉ s.line
             ∧ State.mayEnter { s with line := s.line ++ [r] } x = false))
  ∧ (∀ (i : SlotId) (item : ReadItem) (p : ReadProgress) (h : Hand) (c : CardRecord) (s : State),
       s.holding i item p h c → (s.line = [] ∨ s.line.head? = some (.slot i)) →
       (s.mayEnter (.slot i) = true ↔
         (∀ q ∈ c.copyPorts item, (s.port q).state = .ready ∧ (s.port q).finishing = false
           ∧ ((s.port q).serving.toList ++ (s.port q).queue).length + (c.copyPorts item).count q ≤ 16)
         ∧ (c.copyPeers item = [] ∨ s.mode = .silent ∨ s.trunk.staging.length < 3)))
  ∧ (∀ (i : SlotId) (item : ReadItem) (p : ReadProgress) (h : Hand) (c : CardRecord) (s : State),
       s.holding i item p h c → item.isCompare = false → (item.needsSettle = false ∨ p.settleBrought = true) →
       s.mayEnter (.slot i) = true →
       ∃ t, exec (.blockDeliver i) s = .next t
         ∧ t.trunk.staging = s.trunk.staging ++
             (if c.copyPeers item = [] ∨ s.mode = .silent then []
              else [{ owner := some i,
                      target := match item with
                        | .resend _ (.peer n) _ _ => n
                        | _ => 0,
                      tag := c.tag, index := h.index, attempt := item.attempt,
                      lastOfSegment := lastOfSegment c.blockCount h.index, bad := h.bad, crc := h.crc,
                      data := h.data }])
         ∧ (∀ q run, q ∈ c.copyPorts item → (c.target (.localPort q)).bind Target.run = some run →
             (t.port q).holds (.write run h.index item.attempt h.crc h.data))
         ∧ (h.index + 1 < item.stop c.blockCount →
             ∃ p', (t.slot i).progress = some p' ∧ p'.next = h.index + 1)
         ∧ t.looks = s.looks ∧ t.trunk.recvQ = s.trunk.recvQ ∧ t.image = s.image)
  ∧ (∀ (i : SlotId) (seg a run round : Nat) (q : PortId) (p : ReadProgress) (h : Hand) (c : CardRecord) (s : State),
       s.holding i (.resend seg (.localPort q) round a) p h c → p.settleBrought = false →
       c.copyPorts (.resend seg (.localPort q) round a) = [q] → (c.target (.localPort q)).bind Target.run = some run →
       s.mayEnter (.slot i) = true →
       ∃ t, exec (.blockDeliver i) s = .next t ∧ (t.port q).holds (.settle run seg a)
         ∧ (s.line = [] → ((s.port q).serving.toList ++ (s.port q).queue).length ≤ 14 →
             (t.port q).holds (.write run h.index a h.crc h.data))
         ∧ (s.line = [] → 15 ≤ ((s.port q).serving.toList ++ (s.port q).queue).length →
             (t.slot i).progress = some { p with settleBrought := true } ∧ .slot i ∈ t.line
               ∧ t.trunk = s.trunk ∧ t.cards = s.cards)
         ∧ t.looks = s.looks ∧ t.trunk.recvQ = s.trunk.recvQ ∧ t.image = s.image)

/-- BLOCK_DELIVER and the segment table. At a segment's first block the cell of each copy receiver in NOT_SENT, or in
RESEND_LISTED with the attempt sent, enters SENT with that attempt (R103); its entry leaves the resend list, and the
re-read of the next head is requested (R112). At a segment's last block a pass enters the source fold in a row that
has none, and nothing else changes a row (R30, R33, R102). With the last block write of a LOCAL target the channel
brings its digest read-back, or asks the slot for a compare re-read in full verify mode (R93). -/
def Obligations.FirstBlocksAreSentAndLastBlocksReadBack : Prop :=
  (∀ (i : SlotId) (item : ReadItem) (p : ReadProgress) (h : Hand) (c : CardRecord) (k : TargetKey) (x : Target)
     (s : State),
     s.holding i item p h c → item.isCompare = false → (item.needsSettle = false ∨ p.settleBrought = true) →
     s.mayEnter (.slot i) = true → h.index % 256 = 0 → c.target k = some x → x.state = .writing →
     let seg := h.index / 256
     seg < x.cells.length →
     ((∃ q ∈ c.copyPorts item, k = .localPort q) ∨ ∃ n ∈ c.copyPeers item, k = .peer n) →
     ((x.cell seg).state = .notSent ∨ ((x.cell seg).state = .resendListed ∧ (x.cell seg).attempt = item.attempt)) →
     ∃ t c' x', exec (.blockDeliver i) s = .next t ∧ t.card i = some c' ∧ c'.target k = some x'
       ∧ (x'.cell seg).state = .sent ∧ (x'.cell seg).attempt = item.attempt
       ∧ ((x.cell seg).state = .resendListed → ∀ e ∈ c'.resend, ¬ (e.segment = seg ∧ e.target = k)))
  ∧ (∀ (i : SlotId) (seg r a : Nat) (k : TargetKey) (p : ReadProgress) (h : Hand) (c : CardRecord) (x y : Target)
       (e : ResendEntry) (rest : List ResendEntry) (s : State),
       s.holding i (.resend seg k r a) p h c → ((ReadItem.resend seg k r a).needsSettle = false ∨ p.settleBrought = true) →
       s.mayEnter (.slot i) = true → h.index = 256 * seg → h.index + 1 < (ReadItem.resend seg k r a).stop c.blockCount →
       c.target k = some x → x.state = .writing → x.roundFormed = r →
       (x.cell seg).state = .resendListed → (x.cell seg).attempt = a →
       c.resend = ⟨seg, k, a⟩ :: e :: rest → (∀ e' ∈ e :: rest, ¬ (e'.segment = seg ∧ e'.target = k)) →
       c.target e.target = some y →
       ∃ t c' more, exec (.blockDeliver i) s = .next t ∧ t.card i = some c' ∧ c'.resend = e :: rest ++ more
         ∧ .resend e.segment e.target y.roundFormed e.attempt ∈ (t.slot i).queue ++ (t.slot i).waiting)
  ∧ (∀ (i : SlotId) (item : ReadItem) (p : ReadProgress) (h : Hand) (c : CardRecord) (s : State),
       s.holding i item p h c → item.isCompare = false → (item.needsSettle = false ∨ p.settleBrought = true) →
       s.mayEnter (.slot i) = true →
       let seg := h.index / 256
       let a := item.attempt
       let last := lastOfSegment c.blockCount h.index = true
       ∃ t c', exec (.blockDeliver i) s = .next t ∧ t.card i = some c'
         ∧ (last ↔ h.index + 1 = min (256 * (seg + 1)) c.blockCount)
         ∧ (item.isPass = true → last → c'.rows = c.rows.modify seg fun w => { w with
             fold := some (w.fold.getD (foldIn (if h.index % 256 = 0 then 0 else p.fold) (h.index % 256) h.crc)) })
         ∧ (¬ (item.isPass = true ∧ last) → c'.rows = c.rows)
         ∧ (last → ∀ q x run, q ∈ c.copyPorts item → c.target (.localPort q) = some x → x.state = .writing →
             x.run = some run →
             (s.cfg.fullVerify = false → (t.port q).holds (.readback run seg a false)
               ∨ .readback run seg a false ∈ (t.port q).readbacks)
             ∧ (s.cfg.fullVerify = true → .compare seg q run a ∈ (t.slot i).queue ++ (t.slot i).waiting)))

/-! ## Rounds, claim windows and report timers -/

/-- CLAIM_WINDOW_EXPIRY: the first wanted claims become PEER targets of the round, the CLAIM_REPLY is queued, and the
window is gone (R62, R65). -/
def Obligations.WindowCloseGrantsTheFirstClaims : Prop :=
  ∀ (i : SlotId) (c : CardRecord) (wanted len : Nat) (ranked : List Nat) (s : State),
    s.card i = some c → c.window = .opened wanted ranked len →
    ∃ t c', exec (.claimWindowExpiry i) s = .next t ∧ t.card i = some c' ∧ c'.window = .none
      ∧ c'.round = c.round ∧ c'.tag = c.tag
      ∧ (∀ n ∈ ranked.take wanted, ∃ x ∈ c'.targets, x.key = .peer n ∧ x.roundFormed = c.round
          ∧ (x.state = .pending ∨ x.state = .writing))
      ∧ (ranked.take wanted ≠ [] → c'.state = .copying)
      ∧ (s.takesControl = true →
          ⟨.claimReply, 0, claimReplyBody c (ranked.take wanted)⟩ ∈ t.trunk.sendQ)
      ∧ t.looks = s.looks ∧ t.hosted = s.hosted

/-- RETRY_INTERVAL_EXPIRY: a new round in RUN with a station present, the timer again otherwise (R53, R54, R61).
RETRY_COPY: a SHORT record in RUN with a round and a copy left begins its next round; otherwise it is refused (R54,
R55). -/
def Obligations.RetryBeginsANewRound : Prop :=
  (∀ (i : SlotId) (c : CardRecord) (n : Nat) (s : State),
     s.card i = some c → c.state = .short → c.retryTimer = some n →
     ((s.mode = .run ∧ s.trunk.presence ≠ []) → ∃ t c', exec (.retryIntervalExpiry i) s = .next t
       ∧ t.card i = some c' ∧ c'.state = .claiming ∧ c'.round = c.round + 1 ∧ c'.retryTimer = none
       ∧ c'.targets = c.targets ∧ c'.tag = c.tag
       ∧ (s.trunk.sendQ.length < 48 → t.trunk.sendQ = s.trunk.sendQ ++
           [⟨.cardAnnounce, 0, announceBody { c with round := c.round + 1 }
             (min (c.k - c.verifiedCount) (3 - c.peerCount))⟩])
       ∧ t.ports = s.ports ∧ t.hosted = s.hosted ∧ t.looks = s.looks)
     ∧ (¬ (s.mode = .run ∧ s.trunk.presence ≠ []) → exec (.retryIntervalExpiry i) s = .next { s with
         cards := s.cards.set i (some { c with retryTimer := some s.cfg.retryInterval }) }))
  ∧ (∀ (m : Message) (rest : List Message) (i : SlotId) (c : CardRecord) (s : State),
       s.heads .retryCopy m rest → m.body.length = 4 → s.holderOf (tagAt m.body) = some i → s.card i = some c →
       let wanted := min (c.k - c.verifiedCount) (3 - c.peerCount)
       ((c.state = .short ∧ c.round < 15 ∧ s.mode = .run ∧ 1 ≤ wanted) → ∃ t c', exec .retryCopy s = .next t
         ∧ t.card i = some c' ∧ c'.state = .claiming ∧ c'.round = c.round + 1 ∧ c'.retryTimer = none
         ∧ c'.targets = c.targets
         ∧ (s.trunk.sendQ.length < 48 → c'.window = .unsent wanted ∧ t.trunk.sendQ = s.trunk.sendQ ++
             [⟨.cardAnnounce, 0, announceBody { c with round := c.round + 1 } wanted⟩])
         ∧ (48 ≤ s.trunk.sendQ.length → c'.window = .opened wanted []
             (if s.cfg.claimWindow = 0 then 2000 else s.cfg.claimWindow))
         ∧ t.ports = s.ports ∧ t.hosted = s.hosted ∧ t.looks = s.looks)
       ∧ (¬ (c.state = .short ∧ c.round < 15 ∧ s.mode = .run ∧ 1 ≤ wanted) → m.target ≠ 0 → s.takesControl = true →
         exec .retryCopy s = .next { s with trunk := { s.trunk with
           recvQ := rest, sendQ := s.trunk.sendQ ++ [⟨.refusal, m.source, refusalBody m .wrongState⟩] } }))

/-- The SETTLING test: with a target still to end it changes nothing (R50). With all targets VERIFIED, FAILED or
DROPPED, RUN_END names the round's PEER targets with their outcomes, if there are any, and the record becomes
RELEASABLE with K verified copies, HELD where it is on hold or has a source error, and SHORT with fewer (R51, R56). At
the entry to SHORT the FAILED and DROPPED targets leave the list, their stations are excluded, at most six, the newest
kept, each is a TARGET_FAILED, COPY_SHORT tells what is missing, and the retry timer starts where a round and a copy
are left (R52, R53). SEGMENT_REPORT: the one that verifies the last cell of the last target to end makes the record
RELEASABLE (R51, R105, R114). That the lamp starts lit in the state entered is log 17, and that several targets leave
in the order of the target list is the model's choice (log 53). -/
def Obligations.SettlingEndsByTheCount : Prop :=
  (∀ (i : SlotId) (c : CardRecord) (s : State), s.card i = some c → c.state = .settling →
     let t := settlingTest i s
     (∀ n b, (n, b) ∈ c.roundOutcomes ↔ ∃ x ∈ c.targets, x.key = .peer n ∧ x.roundFormed = c.round
       ∧ x.state = if b then .verified else .failed)
     ∧ ((∃ x ∈ c.targets, x.state = .pending ∨ x.state = .writing) → t = s)
     ∧ ((∀ x ∈ c.targets, x.state ≠ .pending ∧ x.state ≠ .writing) →
       (c.roundOutcomes = [] → t.trunk = s.trunk)
       ∧ (c.roundOutcomes ≠ [] → s.takesControl = true → t.trunk = { s.trunk with
           sendQ := s.trunk.sendQ ++ [⟨.runEnd, 0, runEndBody c.tag c.roundOutcomes⟩] })
       ∧ (c.k ≤ c.verifiedCount → c.hold = false → c.sourceErrors = 0 →
           t.card i = some { c with state := .releasable, lampLit := true })
       ∧ (c.k ≤ c.verifiedCount → (c.hold = true ∨ 0 < c.sourceErrors) →
           t.card i = some { c with state := .held, lampLit := true })
       ∧ (c.verifiedCount < c.k → (c.targets.map Target.key).Nodup →
           let gone := c.targets.filter fun x => x.state != .verified
           let stations := gone.filterMap fun x =>
             match x.key with
             | .peer n => some n
             | .localPort _ => none
           let kept := c.targets.filter fun x => x.state == .verified
           let short := c.k - c.verifiedCount
           ∃ c', t.card i = some c'
             ∧ c' = { c with
                 state := .short, lampLit := true, targets := kept, excluded := c'.excluded, log := c'.log
                 retryTimer := if (s.mode = .listen ∨ s.mode = .run) ∧ c.round < 15
                     ∧ 1 ≤ min short (3 - kept.countP Target.isPeer)
                   then some s.cfg.retryInterval else none }
             ∧ ((∀ n ∈ stations, n ∉ c.excluded) → c.excluded.length ≤ 6 →
                 c'.excluded = (c.excluded ++ stations).drop (c.excluded.length + stations.length - 6))
             ∧ c'.log.counts[4]? = (if gone = [] then c.log.counts[4]?
                 else (c.log.counts[4]?).map fun n => min 65535 (n + gone.length))
             ∧ c'.log.counts[5]? = (c.log.counts[5]?).map (fun n => min 65535 (n + 1))
             ∧ (c.log.records = [] → gone.length < 8 → c'.log.records =
                 (gone.map fun x => ⟨.targetFailed, none, 0, 0, 1,
                   match x.key with
                   | .localPort p => BitVec.ofNat 32 (portNumber p)
                   | .peer n => BitVec.ofNat 32 (256 + n), none⟩)
                 ++ [⟨.copyShort, none, 0, 0, 1, BitVec.ofNat 32 short, none⟩]))))
  ∧ (∀ (m : Message) (rest : List Message) (r : Report) (i : SlotId) (c : CardRecord) (x : Target) (row : Row)
       (T : Option Nat) (s : State),
       s.heads .segmentReport m rest → readReport m = some r → s.holderOf r.tag = some i → s.card i = some c →
       c.state = .settling → (s.slot i).state ≠ .reading → (c.targets.map Target.key).Nodup →
       c.target (.peer m.source) = some x → x.state = .writing → r.segment < c.segmentCount →
       x.cells[r.segment]? = some ⟨.sent, r.attempt, T⟩ → x.verifiedSegments + 1 = c.segmentCount →
       (∀ y ∈ c.targets, y.key ≠ .peer m.source → y.final = true) →
       r.outcome = .written → c.rows[r.segment]? = some row → r.present = row.blocks → row.fold = some r.fold →
       r.first = 0xFFFF → c.k ≤ c.verifiedCount + 1 → c.hold = false → c.sourceErrors = 0 →
       ∃ t c', exec .segmentReport s = .next t ∧ t.card i = some c' ∧ c'.state = .releasable
         ∧ c'.verifiedCount = c.verifiedCount + 1 ∧ t.looks = s.looks ∧ t.hosted = s.hosted)

/-- REPORT_TIMER_EXPIRY of a target in WRITING, before the third attempt: the cell is listed for a resend with its
next attempt, and VERIFY_MISMATCH is counted (R107, R109, R111). At the third attempt the target becomes FAILED, and
RUN_CANCEL is queued for its station (R107, R109, R110, R77). The premises on the target and on the waiting reads rule
out states that no run reaches: StepsKeepTheCourseOfRecords has them as invariants. -/
def Obligations.ReportTimeoutIsAFailedAttempt : Prop :=
  (∀ (i : SlotId) (c : CardRecord) (n seg a T : Nat) (x : Target) (s : State),
     s.card i = some c → c.target (.peer n) = some x → x.cells[seg]? = some ⟨.sent, a, some T⟩ → a < 3 →
     x.state = .writing → c.resend.length < 64 →
     ∃ t c' x', exec (.reportTimerExpiry i seg n) s = .next t ∧ t.card i = some c'
       ∧ c'.target (.peer n) = some x' ∧ x'.cells[seg]? = some ⟨.resendListed, a + 1, none⟩
       ∧ c'.resend = c.resend ++ [⟨seg, .peer n, a + 1⟩]
       ∧ c'.log.counts = c.log.counts.modify 3 (fun n => min 65535 (n + 1))
       ∧ t.looks = s.looks ∧ t.hosted = s.hosted)
  ∧ (∀ (i : SlotId) (c : CardRecord) (n seg T : Nat) (x : Target) (s : State),
       s.card i = some c → c.target (.peer n) = some x → x.cells[seg]? = some ⟨.sent, 3, some T⟩ →
       x.state = .writing → ((s.slot i).state = .reading ∨ (s.slot i).waiting = []) →
       ∃ t c', exec (.reportTimerExpiry i seg n) s = .next t ∧ t.card i = some c'
         ∧ (∀ x', c'.target (.peer n) = some x' → x'.state = .failed)
         ∧ (∀ e ∈ c'.resend, e.target ≠ .peer n)
         ∧ (s.takesControl = true → ⟨.runCancel, n, runCancelBody c.tag .targetDropped⟩ ∈ t.trunk.sendQ)
         ∧ t.looks = s.looks ∧ t.hosted = s.hosted)

/-! ## Hosted copies -/

/-- Where a block of a segment and attempt is placed (R72). HOSTED_BLOCK_HANDOVER without room: the block waits in
line (R71; the line is the model's choice, log 8). With room its buffer is free, and a block that R72 ignores changes
nothing else (R71, R72). A block that joins the open segment is in its set, and is written unless it lies beyond the
entry's block count; one of another segment or of a newer attempt opens that segment with its segment job, and the
open one closes, or, under a newer attempt, is dropped without a report (R71, R72, R73, R93). A block with the
last-of-segment flag closes its segment: a full one awaits its read-back, of any other the report is queued (R73,
R74); a block beyond the block count closes it at once (log 42). That each opening under a repeated key has a job of
its own, and that the job opened last is the one dropped, is the model's choice (log 45). -/
def Obligations.HostedBlockIsPlacedAndWritten : Prop :=
  (∀ (e : HostedEntry) (seg a : Nat),
     (∀ o, e.opened = some o → seg = o.segment →
       (a = o.attempt → e.place seg a = .joins) ∧ (o.attempt < a → e.place seg a = .reopens)
         ∧ (a < o.attempt → e.place seg a = .ignored))
     ∧ ((e.opened = none ∨ ∃ o, e.opened = some o ∧ seg ≠ o.segment) →
         (a = 1 → (∀ h, e.highest = some h → h < seg) → e.place seg a = .opens)
         ∧ (a = 1 → (∃ h, e.highest = some h ∧ seg ≤ h) → e.place seg a = .ignored)
         ∧ (1 < a → (∃ l, e.lastClosed = some l ∧ l.segment = seg ∧ l.attempt = a) → e.place seg a = .ignored)
         ∧ (1 < a → (∀ l, e.lastClosed = some l → ¬ (l.segment = seg ∧ l.attempt = a)) →
             e.place seg a = .opens)))
  ∧ (∀ (port : PortId) (b : BulkBlock) (place : Nat) (e : HostedEntry) (o : OpenSegment) (s : State),
       s.firstBulk port = some b → s.hostedPlace b.tag = some place → s.hostedAt place = some e →
       e.opened = some o → e.place (b.index / 256) b.attempt = .joins → s.mayEnter (.bulk b.buffer) = true →
       b.lastOfSegment = false →
       ∃ t, exec (.hostedBlockHandover port) s = .next t
         ∧ t.trunk = { s.trunk with bulk := s.trunk.bulk.filter fun x => x.buffer != b.buffer }
         ∧ t.hostedAt place = some { e with opened := some { o with
             present := insertSorted b.index o.present, beyond := o.beyond || decide (e.blockCount ≤ b.index),
             timer := s.cfg.segmentIdle } }
         ∧ (b.index < e.blockCount →
             (t.port e.port).holds (.write e.run b.index b.attempt b.crc b.data))
         ∧ (e.blockCount ≤ b.index → t.ports = s.ports)
         ∧ t.cards = s.cards ∧ t.looks = s.looks)
  ∧ (∀ (port : PortId) (b : BulkBlock) (place : Nat) (e : HostedEntry) (s : State),
       s.firstBulk port = some b → s.hostedPlace b.tag = some place → s.hostedAt place = some e →
       (s.mayEnter (.bulk b.buffer) = false → exec (.hostedBlockHandover port) s = .next { s with
         line := s.lineWith (.bulk b.buffer) })
       ∧ (e.place (b.index / 256) b.attempt = .ignored → s.mayEnter (.bulk b.buffer) = true →
         exec (.hostedBlockHandover port) s = .next { s with
           trunk := { s.trunk with bulk := s.trunk.bulk.filter fun x => x.buffer != b.buffer }
           line := s.line.filter fun r => r != .bulk b.buffer }))
  ∧ (∀ (port : PortId) (b : BulkBlock) (place : Nat) (e : HostedEntry) (s : State),
       s.firstBulk port = some b → s.hostedPlace b.tag = some place → s.hostedAt place = some e →
       s.mayEnter (.bulk b.buffer) = true → b.index < e.blockCount →
       let seg := b.index / 256
       let freed := { s.trunk with bulk := s.trunk.bulk.filter fun x => x.buffer != b.buffer }
       let write := WorkItem.write e.run b.index b.attempt b.crc b.data
       let job : SegmentJob := ⟨e.run, seg, b.attempt, segmentSize e.blockCount e.segmentCount seg,
         [(b.index % 256, b.crc)]⟩
       let fresh := { e with
         opened := some ⟨seg, b.attempt, [b.index], false, false, s.cfg.segmentIdle⟩
         highest := if b.attempt = 1 then some seg else e.highest }
       let report := fun (o : OpenSegment) (present : Nat) => (⟨.segmentReport, e.tag.station, reportBody
         ⟨e.tag, o.segment, o.attempt, if o.beyond then .destFull else .missingBlocks, present, 0xFFFF, 0⟩⟩ : OutMessage)
       let readBack := fun (o : OpenSegment) (c : Channel) => c.holds (.readback e.run o.segment o.attempt false)
         ∨ .readback e.run o.segment o.attempt false ∈ c.readbacks
       (b.lastOfSegment = false → e.place seg b.attempt = .opens →
         (e.opened = none → ∃ t, exec (.hostedBlockHandover port) s = .next t
           ∧ t.trunk = freed ∧ t.hostedAt place = some fresh ∧ (t.port e.port).holds write
           ∧ (t.port e.port).jobs = (s.port e.port).jobs ++ [job] ∧ t.cards = s.cards ∧ t.looks = s.looks)
         ∧ ∀ o, e.opened = some o →
           ((o.beyond = false ∧ o.present.length = segmentSize e.blockCount e.segmentCount o.segment) →
             ∃ t, exec (.hostedBlockHandover port) s = .next t
               ∧ t.trunk = freed ∧ (t.port e.port).holds write ∧ readBack o (t.port e.port)
               ∧ (t.port e.port).jobs = (s.port e.port).jobs ++ [job]
               ∧ t.hostedAt place = some { fresh with
                   lastClosed := some ⟨o.segment, o.attempt, o.present.length⟩
                   owed := e.owed ++ [⟨o.segment, o.attempt, o.present.length, none⟩] }
               ∧ t.cards = s.cards ∧ t.looks = s.looks)
           ∧ ((o.beyond = true ∨ o.present.length ≠ segmentSize e.blockCount e.segmentCount o.segment) →
             e.owed = [] → s.takesControl = true → ∃ t, exec (.hostedBlockHandover port) s = .next t
               ∧ t.trunk = { freed with sendQ := s.trunk.sendQ ++ [report o o.present.length] }
               ∧ (t.port e.port).holds write ∧ (t.port e.port).jobs.getLast? = some job
               ∧ t.hostedAt place = some { fresh with
                   lastClosed := some ⟨o.segment, o.attempt, o.present.length⟩, lastMismatch := 0xFFFF }
               ∧ t.cards = s.cards ∧ t.looks = s.looks))
       ∧ (∀ o, b.lastOfSegment = false → e.opened = some o → e.place seg b.attempt = .reopens →
         ∃ t, exec (.hostedBlockHandover port) s = .next t
           ∧ t.trunk = freed ∧ t.hostedAt place = some { fresh with highest := e.highest }
           ∧ (t.port e.port).holds write ∧ (t.port e.port).jobs.getLast? = some job
           ∧ (t.port e.port).jobs.countP (fun j => j.isOf e.run o.segment o.attempt)
               = (s.port e.port).jobs.countP (fun j => j.isOf e.run o.segment o.attempt) - 1
           ∧ t.cards = s.cards ∧ t.looks = s.looks)
       ∧ (∀ o high, b.lastOfSegment = true →
         ((e.opened = some o ∧ e.place seg b.attempt = .joins ∧ high = e.highest)
           ∨ (e.opened = none ∧ e.place seg b.attempt = .opens ∧ high = fresh.highest
               ∧ o = ⟨seg, b.attempt, [], false, false, s.cfg.segmentIdle⟩)) →
         let present := (insertSorted b.index o.present).length
         let closed := { e with
           opened := none, highest := high, lastClosed := some ⟨o.segment, o.attempt, present⟩ }
         ((o.beyond = false ∧ present = segmentSize e.blockCount e.segmentCount o.segment) →
           ∃ t, exec (.hostedBlockHandover port) s = .next t
             ∧ t.trunk = freed ∧ (t.port e.port).holds write ∧ readBack o (t.port e.port)
             ∧ t.hostedAt place = some { closed with owed := e.owed ++ [⟨o.segment, o.attempt, present, none⟩] }
             ∧ t.cards = s.cards ∧ t.looks = s.looks)
         ∧ ((o.beyond = true ∨ present ≠ segmentSize e.blockCount e.segmentCount o.segment) →
           e.owed = [] → s.takesControl = true → ∃ t, exec (.hostedBlockHandover port) s = .next t
             ∧ t.trunk = { freed with sendQ := s.trunk.sendQ ++ [report o present] } ∧ (t.port e.port).holds write
             ∧ t.hostedAt place = some { closed with lastMismatch := 0xFFFF }
             ∧ t.cards = s.cards ∧ t.looks = s.looks)))
  ∧ (∀ (port : PortId) (b : BulkBlock) (place : Nat) (e : HostedEntry) (o : OpenSegment) (s : State),
       s.firstBulk port = some b → s.hostedPlace b.tag = some place → s.hostedAt place = some e →
       s.mayEnter (.bulk b.buffer) = true → e.blockCount ≤ b.index → b.lastOfSegment = true →
       e.opened = some o → e.place (b.index / 256) b.attempt = .joins → e.owed = [] → s.takesControl = true →
       let present := (insertSorted b.index o.present).length
       ∃ t, exec (.hostedBlockHandover port) s = .next t
         ∧ t.trunk = { s.trunk with
             bulk := s.trunk.bulk.filter fun x => x.buffer != b.buffer
             sendQ := s.trunk.sendQ ++ [⟨.segmentReport, e.tag.station,
               reportBody ⟨e.tag, o.segment, o.attempt, .destFull, present, 0xFFFF, 0⟩⟩] }
         ∧ t.hostedAt place = some { e with
             opened := none, lastClosed := some ⟨o.segment, o.attempt, present⟩, lastMismatch := 0xFFFF }
         ∧ (t.port e.port).queue = (s.port e.port).queue ∧ (t.port e.port).serving = (s.port e.port).serving
         ∧ t.cards = s.cards ∧ t.looks = s.looks)

/-- SEGMENT_IDLE_TIMER_EXPIRY: the report of a segment that is not full, or lies beyond the reservation, is formed at
once, and queued behind those of the segments closed before it; a full one is read back, and its report is owed (R73,
R74). RESERVATION_TIMER_EXPIRY: the entry is freed, its whole reservation returns to its port, and no fault is
recorded (R68). -/
def Obligations.HostedTimersCloseOrFree : Prop :=
  (∀ (place : Nat) (e : HostedEntry) (o : OpenSegment) (s : State),
     s.hostedAt place = some e → e.state = .receiving → e.opened = some o →
     ((o.beyond = true ∨ o.present.length ≠ segmentSize e.blockCount e.segmentCount o.segment) →
       (e.owed = [] → s.takesControl = true → ∃ t, exec (.segmentIdleTimerExpiry place) s = .next t
         ∧ t.hostedAt place = some { e with
             opened := none, lastClosed := some ⟨o.segment, o.attempt, o.present.length⟩, lastMismatch := 0xFFFF }
         ∧ t.trunk.sendQ = s.trunk.sendQ ++ [⟨.segmentReport, e.tag.station,
             reportBody ⟨e.tag, o.segment, o.attempt, if o.beyond then .destFull else .missingBlocks,
               o.present.length, 0xFFFF, 0⟩⟩]
         ∧ t.cards = s.cards ∧ t.looks = s.looks)
       ∧ (∀ w ws, e.owed = w :: ws → w.formed = none → ∃ t, exec (.segmentIdleTimerExpiry place) s = .next t
         ∧ t.hostedAt place = some { e with
             opened := none, lastClosed := some ⟨o.segment, o.attempt, o.present.length⟩
             owed := e.owed ++ [⟨o.segment, o.attempt, o.present.length,
               some ⟨if o.beyond then .destFull else .missingBlocks, 0xFFFF, 0⟩⟩] }
         ∧ t.trunk = s.trunk ∧ t.cards = s.cards ∧ t.looks = s.looks))
     ∧ ((o.beyond = false ∧ o.present.length = segmentSize e.blockCount e.segmentCount o.segment) →
       ∃ t, exec (.segmentIdleTimerExpiry place) s = .next t
         ∧ t.hostedAt place = some { e with
             opened := none, lastClosed := some ⟨o.segment, o.attempt, o.present.length⟩
             owed := e.owed ++ [⟨o.segment, o.attempt, o.present.length, none⟩] }
         ∧ ((t.port e.port).holds (.readback e.run o.segment o.attempt false)
             ∨ .readback e.run o.segment o.attempt false ∈ (t.port e.port).readbacks)
         ∧ t.trunk = s.trunk ∧ t.cards = s.cards ∧ t.looks = s.looks))
  ∧ (∀ (place : Nat) (e : HostedEntry) (r : Run) (s : State),
       s.hostedAt place = some e → e.state = .reserved → (s.port e.port).runs.find? (fun x => x.id == e.run) = some r →
       (s.port e.port).acceptedBlocks e.run = [] →
       ∃ t, exec (.reservationTimerExpiry place) s = .next t
         ∧ t.hostedAt place = none
         ∧ (t.port e.port).fig = { (s.port e.port).fig with
             reserved := (s.port e.port).fig.reserved - r.reservation }
         ∧ (∀ x ∈ (t.port e.port).runs, x.id ≠ e.run)
         ∧ (∀ q, q ≠ e.port → t.port q = s.port q)
         ∧ t.stationLog = s.stationLog ∧ t.trunk.sendQ = s.trunk.sendQ ∧ t.pubQ = s.pubQ ∧ t.cards = s.cards
         ∧ t.looks = s.looks)

/-! ## Drive ports -/

/-- DRIVE_ATTACH: an ABSENT port becomes READY with the reported figures; any other port is left alone (R82).
DRIVE_DETACH and DRIVE_ERROR lose a READY port: its items, jobs, capture and figures go, its LOCAL targets fail, and
its hosted entries leave the table; a FAILED port only becomes ABSENT (R83, R75). An entry in RECEIVING reports
WRITE_FAILED for each segment that awaits its read-back and for the open one, in this order, or for the last closed
one when there is none (R75), with the blocks that its set held (log 16). That an ABANDONED record's LOCAL target
fails with the others, and that the record keeps the rest, is log 15. The premises on such a record rule out states
that no run reaches: StepsKeepTheCourseOfRecords has two of them as invariants, and an abandonment empties the resend
list (R58). -/
def Obligations.PortsAttachAndAreLost : Prop :=
  (∀ (p : PortId) (r : DriveReport) (s : State),
     ((s.port p).state ≠ .absent → exec (.driveAttach p r) s = .next s)
     ∧ ((s.port p).state = .absent → ∃ t, exec (.driveAttach p r) s = .next t
       ∧ t = { s with ports := t.ports } ∧ (∀ q, q ≠ p → t.port q = s.port q)
       ∧ (t.port p).state = .ready ∧ (t.port p).cls = some r.cls
       ∧ (t.port p).fig = ⟨r.capacity, min r.used r.capacity, 0⟩ ∧ (t.port p).serving = none
       ∧ (t.port p).queue = [] ∧ (t.port p).jobs = [] ∧ (t.port p).runs = [] ∧ (t.port p).capture = none))
  ∧ (∀ (p : PortId) (s : State),
       let settled := fun t : State =>
         (t.port p).fig = ⟨0, 0, 0⟩ ∧ (t.port p).cls = none ∧ (t.port p).serving = none ∧ (t.port p).queue = []
         ∧ (t.port p).readbacks = [] ∧ (t.port p).jobs = [] ∧ (t.port p).runs = [] ∧ (t.port p).capture = none
         ∧ (∀ i c x, s.card i = some c → c.target (.localPort p) = some x → x.active = true →
             ∃ c', t.card i = some c' ∧ ∀ x', c'.target (.localPort p) = some x' → x'.state = .failed)
         ∧ (∀ i c, s.card i = some c → c.state = .abandoned → c.resend = [] → (s.slot i).state ≠ .reading →
             (c.targets.map Target.key).Nodup → t.card i = some { c with
               targets := c.targets.map fun x =>
                 if x.key = .localPort p ∧ x.active = true then { x with
                   state := .failed
                   cells := x.cells.map fun k =>
                     if k.state = .verified then k else { k with state := .failed, timer := none } }
                 else x })
         ∧ (∀ place e, place < 8 → s.hostedAt place = some e →
             (e.port = p → t.hostedAt place = none) ∧ (e.port ≠ p → t.hostedAt place = some e))
         ∧ (∀ place e, place < 8 → s.hostedAt place = some e → e.port = p → e.state = .receiving →
             s.mode ≠ .silent → s.mode ≠ .localOnly →
             s.trunk.sendQ.length + 8 + (s.hosted.map fun o => (o.map fun h => h.owed.length + 1).getD 0).sum ≤ 48 →
             let lost := fun segment attempt present : Nat => (⟨.segmentReport, e.tag.station,
               reportBody ⟨e.tag, segment, attempt, .writeFailed, present, 0xFFFF, 0⟩⟩ : OutMessage)
             let reports := (e.owed.filter fun o => o.formed.isNone).map (fun o => lost o.segment o.attempt o.present)
               ++ e.opened.toList.map fun o => lost o.segment o.attempt o.present.length
             reports.Sublist t.trunk.sendQ
             ∧ (reports = [] → ∀ l, e.lastClosed = some l → lost l.segment l.attempt l.present ∈ t.trunk.sendQ)
             ∧ (reports = [] → e.lastClosed = none → lost 0 1 0 ∈ t.trunk.sendQ))
         ∧ t.looks = s.looks
       ((s.port p).state = .ready →
         ∃ t, exec (.driveDetach p) s = .next t ∧ (t.port p).state = .absent ∧ settled t)
       ∧ ((s.port p).state = .ready → (s.port p).serving.isSome = true →
         ∃ t, exec (.driveError p) s = .next t ∧ (t.port p).state = .failed ∧ settled t)
       ∧ ((s.port p).state = .failed → ∃ t, exec (.driveDetach p) s = .next t
         ∧ (t.port p).state = .absent ∧ (t.port p).fig = (s.port p).fig ∧ t.cards = s.cards ∧ t.hosted = s.hosted))

/-- BLOCK_WRITE_DONE: the data stands at the block's place; the first write of a block moves it from reserved to used,
and a later one moves nothing (R86, R91). The last write of a COMPLETE or CANCELLED entry frees the entry, and its
unwritten remainder returns (R78, R87). The last accepted write of a run that has ended is counted, and the run goes
(R92; log 11). A channel that finishes a warm restart counts the write and is then as after a restart, with nothing
reserved (R84, R182). The request of a new mount that waited is then answered: granted, it forms a LOCAL target in
PENDING, DC0 before DC1, and with its last answer the record leaves INDEXING or waits for RUN (R45, R46, R182; log
14). The premises on such a record rule out states that no run reaches. -/
def Obligations.FirstWriteMovesOneBlock : Prop :=
  ∀ (p : PortId) (run block a : Nat) (w : Word) (d : List Byte) (r : Run) (s : State),
    (s.port p).serving = some (.write run block a w d) →
    (s.port p).runs.find? (fun x => x.id == run) = some r → 0 < r.reservation → 0 < (s.port p).fig.reserved →
    let moved := if r.written.contains block then 0 else 1
    ((s.port p).finishing = false → r.ended = false →
      (∀ e, some e ∈ s.hosted → e.run = run → e.state ≠ .complete ∧ e.state ≠ .cancelled) →
      ∃ t, exec (.blockWriteDone p) s = .next t ∧ t = { s with ports := t.ports }
        ∧ (∀ q, q ≠ p → t.port q = s.port q)
        ∧ (∀ m ∈ (t.port p).media, m.run = run → m.block = block → m.data = d)
        ∧ ⟨run, block, d⟩ ∈ (t.port p).media
        ∧ (r.written.contains block = false →
            (t.port p).fig = { (s.port p).fig with
              used := (s.port p).fig.used + 1, reserved := (s.port p).fig.reserved - 1 }
            ∧ (t.port p).runs.find? (fun x => x.id == run) = some { r with
              written := insertSorted block r.written, reservation := r.reservation - 1 })
        ∧ (r.written.contains block = true → (t.port p).fig = (s.port p).fig ∧ (t.port p).runs = (s.port p).runs))
    ∧ (∀ place e, (s.port p).finishing = false → r.ended = false →
        s.hosted.findIdx? (fun o => o.any fun h => h.run == run) = some place → s.hostedAt place = some e →
        e.port = p → (e.state = .complete ∨ e.state = .cancelled) →
        (∀ x ∈ (s.port p).queue ++ (s.port p).readbacks, x.run ≠ some run) →
        ∃ t, exec (.blockWriteDone p) s = .next t ∧ t.hostedAt place = none
          ∧ (t.port p).fig = { (s.port p).fig with
              used := (s.port p).fig.used + moved, reserved := (s.port p).fig.reserved - r.reservation }
          ∧ (∀ x ∈ (t.port p).runs, x.id ≠ run) ∧ ⟨run, block, d⟩ ∈ (t.port p).media
          ∧ (∀ q, q ≠ p → t.port q = s.port q) ∧ t.cards = s.cards ∧ t.looks = s.looks
          ∧ t.trunk.sendQ = s.trunk.sendQ ∧ t.stationLog = s.stationLog)
    ∧ ((s.port p).finishing = false → r.ended = true → (∀ e, some e ∈ s.hosted → e.run ≠ run) →
        (∀ x ∈ (s.port p).queue, x.run ≠ some run) →
        ∃ t, exec (.blockWriteDone p) s = .next t ∧ t = { s with ports := t.ports }
          ∧ (t.port p).fig = { (s.port p).fig with
              used := (s.port p).fig.used + moved, reserved := (s.port p).fig.reserved - r.reservation }
          ∧ (∀ x ∈ (t.port p).runs, x.id ≠ run) ∧ ⟨run, block, d⟩ ∈ (t.port p).media
          ∧ ∀ q, q ≠ p → t.port q = s.port q)
    ∧ ((s.port p).finishing = true → (s.port p).requests = [] →
        ∃ t, exec (.blockWriteDone p) s = .next t ∧ t = { s with ports := t.ports }
          ∧ (t.port p).fig = ⟨(s.port p).fig.capacity, (s.port p).fig.used + moved, 0⟩
          ∧ (t.port p).finishing = false ∧ (t.port p).serving = none ∧ (t.port p).queue = []
          ∧ (t.port p).readbacks = [] ∧ (t.port p).runs = [] ∧ (t.port p).jobs = [] ∧ (t.port p).capture = none
          ∧ (t.port p).state = (s.port p).state ∧ ⟨run, block, d⟩ ∈ (t.port p).media
          ∧ ∀ q, q ≠ p → t.port q = s.port q)
    ∧ (∀ i c, (s.port p).finishing = true → (s.port p).requests = [.card i] → s.card i = some c →
        c.state = .indexing → c.forming = [p] → (∀ x ∈ c.targets, x.state = .pending) →
        ∃ t c', exec (.blockWriteDone p) s = .next t ∧ t.card i = some c' ∧ c'.forming = []
          ∧ (c'.state ≠ .indexing ∨ c'.waitingForRun = true)
          ∧ let used := (s.port p).fig.used + moved
            let granted := (s.port p).state = .ready ∧ c.blockCount ≤ (s.port p).fig.capacity - used
            (granted → (t.port p).fig = ⟨(s.port p).fig.capacity, used, c.blockCount⟩
              ∧ (p = .dc0 → c'.targets.map Target.key = .localPort p :: c.targets.map Target.key)
              ∧ (p = .dc1 → c'.targets.map Target.key = c.targets.map Target.key ++ [.localPort p]))
            ∧ (¬ granted → (t.port p).fig = ⟨(s.port p).fig.capacity, used, 0⟩
              ∧ c'.targets.map Target.key = c.targets.map Target.key))

/-- With nothing in service, the oldest item that is not a proxy frame is taken, and the oldest proxy frame when
nothing else waits (R90). SETTLE_WAIT_DONE: the wait, whose length the drive's class sets, ends, and with no read-back
waiting the next item is taken (R98). -/
def Obligations.QueueIsServedProxiesLast : Prop :=
  (∀ c : Channel, c.serving = none → c.finishing = false →
     (∀ before x after, c.queue = before ++ x :: after → x.isProxy = false → (∀ y ∈ before, y.isProxy = true) →
       c.serve.serving = some x ∧ c.serve.queue = before ++ after)
     ∧ (∀ x rest, c.queue = x :: rest → (∀ y ∈ c.queue, y.isProxy = true) →
       c.serve.serving = some x ∧ c.serve.queue = rest)
     ∧ (c.queue = [] → c.serve = c))
  ∧ (∀ (p : PortId) (run seg a : Nat) (s : State), (s.port p).serving = some (.settle run seg a) →
       ((s.port p).cls = some .spinning → (s.port p).settleLength = some 50)
       ∧ ((s.port p).cls = some .array → (s.port p).settleLength = some 10)
       ∧ ((s.port p).cls = some .flash → (s.port p).settleLength = some 2)
       ∧ ((s.port p).readbacks = [] → (s.port p).finishing = false →
           ∃ t, exec (.settleWaitDone p) s = .next t ∧ t = { s with ports := t.ports }
             ∧ (∀ q, q ≠ p → t.port q = s.port q) ∧ (t.port p).fig = (s.port p).fig
             ∧ ((s.port p).queue = [] → (t.port p).serving = none)
             ∧ (∀ x rest, (s.port p).queue = x :: rest → x.isProxy = false →
                 (t.port p).serving = some x ∧ (t.port p).queue = rest)))

/-- DIGEST_READBACK_DONE for a LOCAL target: when every CRC agrees and the fold is the source fold, the cell becomes
VERIFIED and the job is gone (R94, R104). Otherwise the attempt fails: with a block whose CRC differs the first is
captured and is the detail of VERIFY_MISMATCH with cause CRC, and with none the folds are, with cause FOLD (R94, R97,
R108); the cell is listed for its next attempt, and at the third the target becomes FAILED (R109). For a hosted entry:
a WRITTEN report with the fold of what the drive holds and the first mismatch, and behind it the reports formed
meanwhile (R74, R94). -/
def Obligations.ReadbackIsJudgedOrReported : Prop :=
  (∀ (p : PortId) (blocks : List (List Byte)) (run seg a : Nat) (job : SegmentJob) (r : Run) (i : SlotId)
     (c : CardRecord) (x : Target) (T : Option Nat) (s : State),
     (s.port p).serving = some (.readback run seg a false) → (s.port p).job run seg a = some job →
     (s.port p).runs.find? (fun y => y.id == run) = some r → r.owner = .card i c.tag →
     blocks.length = job.expected → s.card i = some c → c.state ≠ .abandoned →
     c.target (.localPort p) = some x → x.cells[seg]? = some ⟨.sent, a, T⟩ →
     (crcMismatches job.kept (blocks.map blockCrc) = [] →
       c.sourceFold seg = some (segmentFold (blocks.map blockCrc)) →
       ∃ t c' x', exec (.digestReadbackDone p blocks) s = .next t ∧ t.card i = some c'
         ∧ c'.target (.localPort p) = some x' ∧ x'.cells[seg]? = some ⟨.verified, a, none⟩
         ∧ (t.port p).job run seg a = none ∧ t.looks = s.looks ∧ t.hosted = s.hosted)
     ∧ (∀ d : VerifyDetail, x.state = .writing →
       ((∃ j k y more, crcMismatches job.kept (blocks.map blockCrc) = (j, k, y) :: more
           ∧ d = ⟨c.tag, seg, a, .crc, some (256 * seg + j), none, some k, some y, min 0xFFFFFFFF (1 + more.length)⟩)
         ∨ (crcMismatches job.kept (blocks.map blockCrc) = []
           ∧ c.sourceFold seg ≠ some (segmentFold (blocks.map blockCrc))
           ∧ d = ⟨c.tag, seg, a, .fold, none, none, c.sourceFold seg, some (segmentFold (blocks.map blockCrc)), 0⟩)) →
       (a < 3 → c.resend.length < 64 →
         ∃ t c' x', exec (.digestReadbackDone p blocks) s = .next t ∧ t.card i = some c'
           ∧ c'.target (.localPort p) = some x' ∧ x'.cells[seg]? = some ⟨.resendListed, a + 1, none⟩
           ∧ c'.resend = c.resend ++ [⟨seg, .localPort p, a + 1⟩]
           ∧ c'.log.counts = c.log.counts.modify 3 (fun n => min 65535 (n + 1))
           ∧ (c.log.records = [] →
               c'.log.records = [⟨.verifyMismatch, some (.localPort p), seg, seg, 1, 0, some d⟩])
           ∧ (∀ j k y more, crcMismatches job.kept (blocks.map blockCrc) = (j, k, y) :: more →
               (s.port p).queue = [] → (s.port p).readbacks = [] →
               (t.port p).capture = some ⟨c.tag, seg, 256 * seg + j, none, k, y, min 0xFFFFFFFF (1 + more.length)⟩)
           ∧ (t.port p).job run seg a = none ∧ t.looks = s.looks ∧ t.hosted = s.hosted)
       ∧ (a = 3 → ∃ t c', exec (.digestReadbackDone p blocks) s = .next t ∧ t.card i = some c'
           ∧ (∀ x', c'.target (.localPort p) = some x' → x'.state = .failed)
           ∧ (∀ e ∈ c'.resend, e.target ≠ .localPort p) ∧ t.looks = s.looks ∧ t.hosted = s.hosted)))
  ∧ (∀ (p : PortId) (blocks : List (List Byte)) (run seg a n place : Nat) (job : SegmentJob) (r : Run) (g : Tag)
       (e : HostedEntry) (s : State),
       (s.port p).serving = some (.readback run seg a false) → (s.port p).job run seg a = some job →
       (s.port p).runs.find? (fun y => y.id == run) = some r → r.owner = .hosted g →
       blocks.length = job.expected → s.hosted.findIdx? (fun h => h.any fun y => y.run == run) = some place →
       s.hostedAt place = some e → e.state = .receiving →
       let first := ((crcMismatches job.kept (blocks.map blockCrc)).head?.map Prod.fst).getD 0xFFFF
       let report := fun (segment attempt present : Nat) (f : FormedReport) => (⟨.segmentReport, e.tag.station,
         reportBody ⟨e.tag, segment, attempt, f.outcome, present, f.first, f.fold⟩⟩ : OutMessage)
       let written := report seg a n ⟨.written, first, segmentFold (blocks.map blockCrc)⟩
       (e.owed = [⟨seg, a, n, none⟩] → s.takesControl = true →
         ∃ t, exec (.digestReadbackDone p blocks) s = .next t
           ∧ t.trunk.sendQ = s.trunk.sendQ ++ [written]
           ∧ t.hostedAt place = some { e with lastMismatch := first, owed := [] }
           ∧ t.cards = s.cards ∧ t.looks = s.looks ∧ t.stationLog = s.stationLog)
       ∧ (∀ seg' a' n' f, e.owed = [⟨seg, a, n, none⟩, ⟨seg', a', n', some f⟩] →
         s.mode ≠ .silent → s.mode ≠ .localOnly → s.trunk.sendQ.length ≤ 46 →
         ∃ t, exec (.digestReadbackDone p blocks) s = .next t
           ∧ t.trunk.sendQ = s.trunk.sendQ ++ [written, report seg' a' n' f]
           ∧ t.hostedAt place = some { e with lastMismatch := f.first, owed := [] }
           ∧ t.cards = s.cards ∧ t.looks = s.looks ∧ t.stationLog = s.stationLog))

/-- FULL_COMPARE_PAIR: a pair is counted and folded, its first difference captured, and later ones add to the captured
count; before the last pair the re-read goes on (R95, R96, R97, R35). After the last pair, a segment without a
difference whose fold is the source fold is VERIFIED, and its job gone (R95, R104); one with a difference is a failed
attempt with cause BYTE and the capture as its detail (R108, R109). -/
def Obligations.ComparePairIsCountedAndFolded : Prop :=
  ∀ (p : PortId) (drive : List Byte) (run seg a : Nat) (k : ComparePass) (job : SegmentJob) (r : Run)
    (i : SlotId) (g : Tag) (q : ReadProgress) (h : Hand) (s : State),
    (s.port p).serving = some (.readback run seg a true) → (s.port p).compare = some k →
    (s.port p).job run seg a = some job → (s.port p).runs.find? (fun y => y.id == run) = some r →
    r.owner = .card i g → (s.slot i).running = some (.compare seg p run a) →
    (s.slot i).progress = some q → q.hand = some h →
    let n := (byteCompare h.data drive).1
    let captured := match (s.port p).capture, (byteCompare h.data drive).2 with
      | some old, _ => some { old with count := min 0xFFFFFFFF (old.count + n) }
      | none, some (offset, x, y) =>
        some ⟨g, seg, h.index, some offset, x.setWidth 32, y.setWidth 32, min 0xFFFFFFFF n⟩
      | none, none => none
    (k.position + 1 < job.expected →
      ∃ t q', exec (.fullComparePair p drive) s = .next t
        ∧ (t.port p).compare = some ⟨k.position + 1, foldIn k.fold k.position (blockCrc drive), k.diffs + n,
            if k.first = none ∧ 0 < n then some k.position else k.first⟩
        ∧ (t.port p).capture = captured
        ∧ (t.slot i).progress = some q' ∧ q'.next = h.index + 1
        ∧ (t.port p).fig = (s.port p).fig ∧ t.cards = s.cards ∧ t.looks = s.looks ∧ t.trunk = s.trunk)
    ∧ (∀ (c : CardRecord) (x : Target) (T : Option Nat), k.position + 1 = job.expected →
        s.card i = some c → c.tag = g → c.state ≠ .abandoned → c.target (.localPort p) = some x →
        x.state = .writing → x.cells[seg]? = some ⟨.sent, a, T⟩ →
        (n = 0 → k.diffs = 0 → k.first = none →
          c.sourceFold seg = some (foldIn k.fold k.position (blockCrc drive)) →
          ∃ t c' x', exec (.fullComparePair p drive) s = .next t ∧ t.card i = some c'
            ∧ c'.target (.localPort p) = some x' ∧ x'.cells[seg]? = some ⟨.verified, a, none⟩
            ∧ (t.port p).job run seg a = none ∧ t.looks = s.looks ∧ t.hosted = s.hosted)
        ∧ (∀ m : Capture, captured = some m → 0 < k.diffs + n → a < 3 → c.resend.length < 64 →
          ∃ t c' x', exec (.fullComparePair p drive) s = .next t ∧ t.card i = some c'
            ∧ c'.target (.localPort p) = some x' ∧ x'.cells[seg]? = some ⟨.resendListed, a + 1, none⟩
            ∧ c'.resend = c.resend ++ [⟨seg, .localPort p, a + 1⟩]
            ∧ c'.log.counts = c.log.counts.modify 3 (fun n => min 65535 (n + 1))
            ∧ (c.log.records = [] →
                c'.log.records = [⟨.verifyMismatch, some (.localPort p), seg, seg, 1, 0,
                  some ⟨g, seg, a, .byte, some m.block, m.offset, some m.source, some m.drive, m.count⟩⟩])
            ∧ (t.port p).job run seg a = none ∧ t.looks = s.looks ∧ t.hosted = s.hosted))

/-- An offered proxy frame goes to the first READY port, or is dropped with no fault (R139). With its outbox empty and
room in the work queue it enters, behind those who wait for places there (log 8): a graded one becomes the hold frame,
a held one has its plane fixed (R140 to R142). Otherwise it goes into the outbox as a held frame, joined to the newest
of its clip with its repeat count, or in one of four places; an overflow is the clip's first PROXY_FULL with detail 2
(R142). GRADE_COMPLETE offers a graded frame (R140); GRADE_TAKE that skips, and a header on a full frame queue, offer
a held one (R141). PROXY_OUTBOX_ENTER: the head enters its port's queue with its plane fixed, and the next head is
offered afresh (R139, R141, R142). PROXY_FRAME_SERVICE: twelve blocks when they fit; otherwise nothing is written, and
the clip's first refusal is PROXY_FULL (R88). That the test is made in that one step is log 63, and that a READY port
which still finishes a warm restart is offered a frame and has no room for it is the model's choice (log 65). -/
def Obligations.ProxyFramesEnterAndAreWritten : Prop :=
  (∀ (i : SlotId) (f : ProxyFrame) (s : State),
     let t := offerProxy i f s
     let box := (s.grade.outbox.get i).frames
     let heldFrame : ProxyFrame := { f with held := true, black := false, plane := [], repeats := 1 }
     let kept := t.ports = s.ports ∧ t.grade.hold = s.grade.hold ∧ t.trunk = s.trunk ∧ t.looks = s.looks
     (s.proxyPort = none → t = s)
     ∧ ∀ p, s.proxyPort = some p →
       ((s.port p).state = .ready ∧ (p = .dc1 → (s.port .dc0).state ≠ .ready))
       ∧ (s.line = [] → (s.fitsBehind (.atPort p 1) s.line = true
           ↔ (s.port p).finishing = false ∧ ((s.port p).serving.toList ++ (s.port p).queue).length < 16))
       ∧ (box = [] → s.fitsBehind (.atPort p 1) s.line = true →
           t.grade.outbox = s.grade.outbox ∧ t.cards = s.cards ∧ t.trunk = s.trunk ∧ t.looks = s.looks
           ∧ (f.held = false → (t.port p).holds (.proxy f)
               ∧ t.grade.hold = s.grade.hold.set i (some ⟨f.tag, f.clip, f.plane⟩))
           ∧ (f.held = true → t.grade.hold = s.grade.hold ∧ ∃ g, (t.port p).holds (.proxy g)
               ∧ g = { f with plane := g.plane, black := g.black }
               ∧ (∀ h, s.grade.hold.get i = some h → h.tag = f.tag → h.clip = f.clip →
                   g.plane = h.plane ∧ g.black = false)
               ∧ ((∀ h, s.grade.hold.get i = some h → ¬ (h.tag = f.tag ∧ h.clip = f.clip)) →
                   g.plane = [] ∧ g.black = true)))
       ∧ (box = [] → s.fitsBehind (.atPort p 1) s.line = false →
           t.grade.outbox.get i = ⟨[heldFrame], some p⟩ ∧ .outbox i ∈ t.line ∧ kept ∧ t.cards = s.cards)
       ∧ ∀ older n, box = older ++ [n] →
         let joins := n.tag = f.tag ∧ n.clip = f.clip ∧ n.repeats < 65535
         (joins → (t.grade.outbox.get i).frames = older ++ [{ n with repeats := n.repeats + 1 }]
             ∧ kept ∧ t.cards = s.cards)
         ∧ (¬ joins → box.length < 4 → (t.grade.outbox.get i).frames = box ++ [heldFrame] ∧ kept ∧ t.cards = s.cards)
         ∧ (¬ joins → 4 ≤ box.length → t.grade = s.grade ∧ t.ports = s.ports
             ∧ (s.holderOf f.tag = none → t = s)
             ∧ ∀ j k m, s.holderOf f.tag = some j → s.clip j f.clip = some k → k.log.counts[10]? = some m →
                 (m ≠ 0 → t = s)
                 ∧ (m = 0 → ∃ k', t.clip j f.clip = some k' ∧ k'.log.counts = k.log.counts.set 10 1
                     ∧ (k.log.records = [] → k'.log.records = [⟨.proxyFull, none, 0, 0, 1, 2, none⟩]))))
  ∧ (∀ (before after : List FrameEntry) (e : FrameEntry) (v : LookValues) (s : State),
       s.grade.queue = before ++ e :: after → e.state = .grading v → (∀ x ∈ before, x.isGrading = false) →
       let offered := offerProxy e.slot ⟨e.tag, e.clip, s.latchedOf e.tag e.clip, e.counter, e.timestamp, false, false, 1,
         (gradePlane v e.plane).1⟩ s
       ∃ t, exec .gradeComplete s = .next t
         ∧ (s.cfg.proxyEnable = true → t.ports = offered.ports ∧ t.grade.outbox = offered.grade.outbox
             ∧ t.grade.hold = offered.grade.hold)
         ∧ (s.cfg.proxyEnable = false → t.ports = s.ports ∧ t.grade.outbox = s.grade.outbox
             ∧ t.grade.hold = s.grade.hold))
  ∧ (∀ (before after : List FrameEntry) (e : FrameEntry) (i : SlotId) (k : Clip) (l : Latched) (r : LookRecord)
       (s : State),
       s.grade.queue = before ++ e :: after → e.state = .complete → (∀ x ∈ before, x.state = .filling) →
       (∀ x ∈ after, x.isGrading = false) → s.holderOf e.tag = some i → s.clip i e.clip = some k →
       k.latched = some l → (s.working.get e.slot).owner ≠ some (e.tag, e.clip) →
       s.look l.slot = some r → r.version ≠ l.version → s.cfg.proxyEnable = true →
       let offered := offerProxy e.slot ⟨e.tag, e.clip, some l, e.counter, e.timestamp, true, false, 1, []⟩ s
       ∃ t, exec .gradeTake s = .next t ∧ t.ports = offered.ports ∧ t.grade.outbox = offered.grade.outbox
         ∧ t.grade.hold = offered.grade.hold)
  ∧ (∀ (i : SlotId) (p : ReadProgress) (h : Hand) (c : CardRecord) (n : Nat) (k : Clip) (older : List ProxyFrame)
       (f : ProxyFrame) (s : State),
       s.holding i .firstPass p h c → s.mayEnter (.slot i) = true → (s.slot i).parser.unit = none → h.index ≠ 0 →
       c.clipAt h.index = some n → c.clips[n]? = some k → goodHeader k c.blockCount h = true →
       8 ≤ s.grade.queue.length → s.cfg.proxyEnable = true → s.proxyPort ≠ none →
       (s.grade.outbox.get i).frames = older ++ [f] → f.tag = c.tag → f.clip = n → f.repeats < 65535 →
       ∃ t, exec (.blockDeliver i) s = .next t
         ∧ (t.grade.outbox.get i).frames = older ++ [{ f with repeats := f.repeats + 1 }])
  ∧ (∀ (i : SlotId) (p : PortId) (f : ProxyFrame) (rest : List ProxyFrame) (s : State),
     (s.grade.outbox.get i) = ⟨f :: rest, some p⟩ → s.mayEnter (.outbox i) = true → f.held = true →
     ∃ t g, exec (.proxyOutboxEnter i) s = .next t
       ∧ (t.port p).holds (.proxy g) ∧ g.tag = f.tag ∧ g.clip = f.clip ∧ g.repeats = f.repeats
       ∧ (∀ h, s.grade.hold.get i = some h → h.tag = f.tag → h.clip = f.clip →
           g.plane = h.plane ∧ g.black = false)
       ∧ ((∀ h, s.grade.hold.get i = some h → ¬ (h.tag = f.tag ∧ h.clip = f.clip)) →
           g.plane = [] ∧ g.black = true)
       ∧ (t.grade.outbox.get i).frames = (if s.proxyPort = none then [] else rest)
       ∧ t.cards = s.cards ∧ t.looks = s.looks ∧ t.trunk = s.trunk)
  ∧ (∀ (p : PortId) (f : ProxyFrame) (s : State), (s.port p).serving = some (.proxy f) →
       (proxyImage f).length = 12 * 65536
       ∧ ((s.port p).fig.used + (s.port p).fig.reserved + 12 ≤ (s.port p).fig.capacity →
           ∃ t, exec (.proxyFrameService p) s = .next t ∧ t = { s with ports := t.ports }
             ∧ (∀ q, q ≠ p → t.port q = s.port q)
             ∧ (t.port p).fig = { (s.port p).fig with used := (s.port p).fig.used + 12 }
             ∧ (t.port p).proxies = (s.port p).proxies ++ [proxyImage f])
       ∧ ((s.port p).fig.capacity < (s.port p).fig.used + (s.port p).fig.reserved + 12 →
           ∃ t, exec (.proxyFrameService p) s = .next t
             ∧ (t.port p).fig = (s.port p).fig ∧ (t.port p).proxies = (s.port p).proxies
             ∧ (∀ i k, s.holderOf f.tag = some i → s.clip i f.clip = some k → k.log.counts[10]? = some 0 →
                 (t.clip i f.clip).map (fun x => x.log.counts[10]?) = some (some 1))
             ∧ (∀ i k n, s.holderOf f.tag = some i → s.clip i f.clip = some k → k.log.counts[10]? = some (n + 1) →
                 t.cards = s.cards)
             ∧ t.looks = s.looks ∧ t.hosted = s.hosted))

/-! ## Frames, looks and grading -/

/-- BLOCK_DELIVER of the first pass through the frame parser. Outside a unit, a block other than block 0 that lies in
a clip is a candidate header of the lowest such clip, good by the five tests (R36). A good one is put to the cadence
check, counted as seen, and opens a unit with an entry of the frame queue or, with none free, is counted pixel-skipped
(R37, R149); any other is FRAME_UNREADABLE (R36). Inside a unit, the plane's bytes fill the entry, COMPLETE with the
last of them, and the unit ends with its last block (R36, R38). A clip entered has its clip end with the last block of
its range below the used range's end (R39); that a bad candidate header enters its clip too is log 22. The cadence
check of a header: the first sets the base (R146); each later one is judged by its difference from the last counter
(R147), with the details of DROPPED_FRAMES and COUNTER_REPEAT (R147, R159); one that keeps the base is also put to the
timing test against the exact expected time (R148). -/
def Obligations.FramesAreParsedAndCadenceChecked : Prop :=
  (∀ (i : SlotId) (n position : Nat) (counter timestamp : Word) (k : Clip) (s : State),
     s.clip i n = some k → k.cadence = none →
     (cadenceCheck i n position counter timestamp s).clip i n
       = some { k with cadence := some ⟨counter, timestamp, counter⟩ })
  ∧ (∀ (i : SlotId) (n position : Nat) (counter timestamp : Word) (k : Clip) (q : Cadence) (s : State),
       s.clip i n = some k → k.cadence = some q →
       let d := (counter - q.p).toInt
       let t := cadenceCheck i n position counter timestamp s
       let deviation := timestamp
         - BitVec.ofNat 32 (q.t0.toNat + (counter - q.c0).toNat * 90000 * k.rateN / k.rateM)
       let slips := s.cfg.cadenceTolerance < deviation.toInt.natAbs
       let fault := fun (kind : FaultKind) (detail : Word) => FaultRecord.mk kind none position position 1 detail none
       let slip := if slips then [fault .timingSlip deviation] else []
       let timed := (t.clip i n).map (fun x => x.log.counts[2]?)
         = some ((k.log.counts[2]?).map fun c => if slips then min 65535 (c + 1) else c)
       (d = 1 → (t.clip i n).map (fun x => x.cadence) = some (some { q with p := counter })
         ∧ (t.clip i n).map (fun x => x.log.counts[0]?) = some (k.log.counts[0]?) ∧ timed
         ∧ (k.log.records = [] → (t.clip i n).map (fun x => x.log.records) = some slip))
       ∧ (2 ≤ d → (t.clip i n).map (fun x => x.cadence) = some (some { q with p := counter })
         ∧ (t.clip i n).map (fun x => x.log.counts[0]?)
             = some ((k.log.counts[0]?).map fun c => min 65535 (c + 1)) ∧ timed
         ∧ (k.log.records = [] → (t.clip i n).map (fun x => x.log.records)
             = some (fault .droppedFrames (counter - q.p - 1) :: slip)))
       ∧ (d ≤ 0 → (t.clip i n).map (fun x => x.cadence) = some (some ⟨counter, timestamp, counter⟩)
         ∧ (t.clip i n).map (fun x => x.log.counts)
             = some (k.log.counts.modify 1 fun c => min 65535 (c + 1))
         ∧ (k.log.records = [] → (t.clip i n).map (fun x => x.log.records)
             = some [fault .counterRepeat (counter - q.p)])))
  ∧ (∀ (k : Clip) (blocks : Nat) (h : Hand), goodHeader k blocks h = true ↔
       (byteAt h.data 0 = 0x3B ∧ byteAt h.data 1 = 0x91 ∧ byteAt h.data 2 = 0x6C ∧ byteAt h.data 3 = 0xE4)
       ∧ 1 ≤ halfAt h.data 12 ∧ 20 ≤ wordAt h.data 16 ∧ wordAt h.data 16 + 777600 ≤ halfAt h.data 12 * 65536
       ∧ h.index + halfAt h.data 12 - 1 < k.first + k.count ∧ h.index + halfAt h.data 12 - 1 < blocks)
  ∧ (∀ (i : SlotId) (p : ReadProgress) (h : Hand) (c : CardRecord) (n : Nat) (k : Clip) (s : State),
       s.holding i .firstPass p h c → s.mayEnter (.slot i) = true → (s.slot i).parser.unit = none → h.index ≠ 0 →
       c.clipAt h.index = some n → c.clips[n]? = some k →
       let counter := BitVec.ofNat 32 (wordAt h.data 4)
       let timestamp := BitVec.ofNat 32 (wordAt h.data 8)
       let offset := wordAt h.data 16
       (goodHeader k c.blockCount h = true → ∃ t checked, exec (.blockDeliver i) s = .next t
         ∧ (cadenceCheck i n k.seen counter timestamp s).clip i n = some checked
         ∧ (t.slot i).parser.unit
             = some ⟨n, h.index, halfAt h.data 12, offset, decide (s.grade.queue.length < 8)⟩
         ∧ n ∈ (t.slot i).parser.entered
         ∧ (s.grade.queue.length < 8 →
             t.clip i n = some { checked with seen := k.seen + 1, pendingPos := k.pendingPos ++ [k.seen] }
             ∧ ∃ before, t.grade.queue = before ++
                 [⟨i, c.tag, n, counter, timestamp, slice (blockBytes h.data) offset (65536 - offset), .filling⟩]
               ∧ before.length = s.grade.queue.length
               ∧ ∀ (j : Nat) (e : FrameEntry), s.grade.queue[j]? = some e → ¬ (e.slot = i ∧ e.state = .filling) →
                   before[j]? = some e)
         ∧ (8 ≤ s.grade.queue.length → t.grade.queue = s.grade.queue ∧ ∃ k', t.clip i n = some k'
             ∧ k'.seen = k.seen + 1 ∧ k'.skipped = k.skipped + 1 ∧ k'.checked = k.checked
             ∧ k'.pendingPos = k.pendingPos ∧ k'.cadence = checked.cadence
             ∧ ∀ j, j < 3 → k'.log.counts[j]? = checked.log.counts[j]?))
       ∧ (goodHeader k c.blockCount h = false → ∃ t k', exec (.blockDeliver i) s = .next t ∧ t.clip i n = some k'
         ∧ k'.seen = k.seen ∧ k'.skipped = k.skipped ∧ k'.pendingPos = k.pendingPos ∧ k'.cadence = k.cadence
         ∧ k'.log.counts = k.log.counts.modify 9 (fun m => min 65535 (m + 1))
         ∧ (k.log.records = [] → k'.log.records =
             [⟨.frameUnreadable, none, h.index, h.index, 1, BitVec.ofNat 32 h.index, none⟩])
         ∧ t.grade.queue = s.grade.queue ∧ (t.slot i).parser.unit = none))
  ∧ (∀ (i : SlotId) (p : ReadProgress) (h : Hand) (c : CardRecord) (u : OpenUnit) (s : State),
       s.holding i .firstPass p h c → s.mayEnter (.slot i) = true → (s.slot i).parser.unit = some u →
       let base := 65536 * (h.index - u.start)
       let stop := u.planeOffset + 777600
       let done := decide (stop ≤ base + 65536)
       ∃ t, exec (.blockDeliver i) s = .next t
         ∧ (t.slot i).parser.unit = (if h.index + 1 = u.start + u.length then none
             else some { u with filling := u.filling && !done })
         ∧ (u.filling = false → t.grade.queue = s.grade.queue)
         ∧ (u.filling = true → ∀ before e after, s.grade.queue = before ++ e :: after →
             e.slot = i → e.state = .filling → (∀ x ∈ before ++ after, ¬ (x.slot = i ∧ x.state = .filling)) →
             t.grade.queue = before ++ { e with
               plane := e.plane ++ ((blockBytes h.data).take (stop - base)).drop (u.planeOffset - base)
               state := if done then .complete else .filling } :: after))
  ∧ (∀ (i : SlotId) (p : ReadProgress) (h : Hand) (c : CardRecord) (s : State),
       s.holding i .firstPass p h c → s.mayEnter (.slot i) = true →
       ∃ t, exec (.blockDeliver i) s = .next t ∧ ∀ (n : Nat) (k : Clip), c.clips[n]? = some k → k.clipEnd = false →
         ∃ k', t.clip i n = some k' ∧ (k'.clipEnd = true ↔
           0 < k.count ∧ min (k.first + k.count) c.blockCount = h.index + 1
             ∧ (n ∈ (s.slot i).parser.entered
               ∨ ((s.slot i).parser.unit = none ∧ h.index ≠ 0 ∧ c.clipAt h.index = some n))))

/-- A version is newer when it lies 1 to 32,767 ahead, and an EMPTY slot accepts any version (R119). -/
def Obligations.NewerVersionIsSerial : Prop :=
  (∀ w v : Half, newerVersion w v = true ↔
    1 ≤ (w.toNat + 65536 - v.toNat) % 65536 ∧ (w.toNat + 65536 - v.toNat) % 65536 ≤ 32767)
  ∧ (∀ v : Half, newerVersion v v = false)
  ∧ newerVersion 13 12 = true ∧ newerVersion 12 13 = false ∧ newerVersion 32777 10 = true
  ∧ newerVersion 32778 10 = false ∧ newerVersion 5 65530 = true
  ∧ (∀ (m : Message) (s : State), 1 ≤ byteAt m.body 0 → byteAt m.body 0 ≤ 15 →
      byteAt m.body 0 < s.looks.length → s.look (byteAt m.body 0) = none →
      (takePublication m s).look (byteAt m.body 0) = some (readLook m.body))

/-- LOOK_PUBLISH accepted: the record of the slot is replaced, and clips graded otherwise are marked regrade-due;
nothing is answered and no fault recorded (R118, R121). Not accepted: refused with BAD_SLOT or SLOT_FIXED when
addressed here, ignored when broadcast or not newer (R118, R169). The values are clamped as they enter the record,
each on its own (R120). That one addressed here is taken in SILENT too, once it is in the receive queue, is the
model's choice (log 49). -/
def Obligations.PublicationIsAcceptedOrRefused : Prop :=
  (∀ (m : Message) (rest : List Message) (s : State),
     s.heads .lookPublish m rest → 1 ≤ byteAt m.body 0 → byteAt m.body 0 ≤ 15 →
     (∀ old, s.look (byteAt m.body 0) = some old → newerVersion (readLook m.body).version old.version = true) →
     ∃ t, exec .lookPublish s = .next t
       ∧ t = { s with
           trunk := { s.trunk with recvQ := rest }
           looks := s.looks.set (byteAt m.body 0) (some (readLook m.body)), cards := t.cards }
       ∧ ∀ i, (s.card i = none → t.card i = none)
         ∧ ∀ c, s.card i = some c → ∃ c', t.card i = some c' ∧ c' = { c with clips := c'.clips }
           ∧ c'.clips.length = c.clips.length
           ∧ ∀ (n : Nat) (k : Clip), c.clips[n]? = some k → ∃ k' : Clip, c'.clips[n]? = some k'
             ∧ k' = { k with regradeDue := k'.regradeDue }
             ∧ (k'.regradeDue = true ↔ k.regradeDue = true ∨ ∃ l, k.latched = some l
                 ∧ ((l.slot = byteAt m.body 0 ∧ l.version ≠ (readLook m.body).version)
                   ∨ (k.assigned = byteAt m.body 0 ∧ l.slot ≠ byteAt m.body 0))))
  ∧ (∀ (m : Message) (rest : List Message) (s : State), s.heads .lookPublish m rest →
       (15 < byteAt m.body 0 → m.target ≠ 0 → s.takesControl = true →
         exec .lookPublish s = .next { s with trunk := { s.trunk with
           recvQ := rest, sendQ := s.trunk.sendQ ++ [⟨.refusal, m.source, refusalBody m .badSlot⟩] } })
       ∧ (byteAt m.body 0 = 0 → m.target ≠ 0 → s.takesControl = true →
         exec .lookPublish s = .next { s with trunk := { s.trunk with
           recvQ := rest, sendQ := s.trunk.sendQ ++ [⟨.refusal, m.source, refusalBody m .slotFixed⟩] } })
       ∧ ((byteAt m.body 0 = 0 ∨ 15 < byteAt m.body 0) → m.target = 0 →
         exec .lookPublish s = .next { s with trunk := { s.trunk with recvQ := rest } })
       ∧ (∀ old, 1 ≤ byteAt m.body 0 → byteAt m.body 0 ≤ 15 → s.look (byteAt m.body 0) = some old →
         newerVersion (readLook m.body).version old.version = false →
         exec .lookPublish s = .next { s with trunk := { s.trunk with recvQ := rest } }))
  ∧ (∀ body : List Byte,
       (readLook body).version = BitVec.ofNat 16 (halfAt body 1) ∧ (readLook body).name = slice body 4 8
       ∧ (readLook body).values.slopeR = min (halfAt body 12) 4095
       ∧ (readLook body).values.slopeG = min (halfAt body 14) 4095
       ∧ (readLook body).values.slopeB = min (halfAt body 16) 4095
       ∧ (readLook body).values.saturation = min (halfAt body 18) 2047
       ∧ (readLook body).values.offsetR = max (-2048) (min (signed16 (halfAt body 20)) 2047)
       ∧ (readLook body).values.offsetG = max (-2048) (min (signed16 (halfAt body 22)) 2047)
       ∧ (readLook body).values.offsetB = max (-2048) (min (signed16 (halfAt body 24)) 2047)
       ∧ (readLook body).values.tone.length = 33
       ∧ ∀ n, n < 33 → (readLook body).values.tone[n]? = some (min (halfAt body (28 + 2 * n)) 4095))

/-- LOOK_ASSIGN: the clips of the range take the slot, and one latched elsewhere is marked; a bad slot, tag or range
is refused when addressed here and ignored when broadcast (R122, R123, R168). That a clip which fell back to slot 0 is
marked when it is assigned the slot it holds is the model's choice (log 46), and so is that one addressed here is
taken in SILENT too, once it is in the receive queue (log 49). -/
def Obligations.AssignmentCoversItsRange : Prop :=
  ∀ (m : Message) (rest : List Message) (s : State), s.heads .lookAssign m rest →
    (∀ i c, byteAt m.body 8 ≤ 15 → s.holderOf (tagAt m.body) = some i → s.card i = some c →
      halfAt m.body 4 < c.clips.length → halfAt m.body 4 ≤ halfAt m.body 6 →
      ∃ t c', exec .lookAssign s = .next t ∧ t = { s with
          trunk := { s.trunk with recvQ := rest }, cards := s.cards.set i (some c') }
        ∧ c' = { c with clips := c'.clips } ∧ c'.clips.length = c.clips.length
        ∧ ∀ (n : Nat) (k : Clip), c.clips[n]? = some k → ∃ k' : Clip, c'.clips[n]? = some k'
          ∧ (halfAt m.body 4 ≤ n → n ≤ halfAt m.body 6 →
              k' = { k with assigned := byteAt m.body 8, regradeDue := k'.regradeDue }
              ∧ (k'.regradeDue = true ↔ k.regradeDue = true
                  ∨ ∃ l, k.latched = some l ∧ l.slot ≠ byteAt m.body 8))
          ∧ (n < halfAt m.body 4 ∨ halfAt m.body 6 < n → k' = k))
    ∧ (m.target ≠ 0 → s.takesControl = true →
      (15 < byteAt m.body 8 → exec .lookAssign s = .next { s with trunk := { s.trunk with
          recvQ := rest, sendQ := s.trunk.sendQ ++ [⟨.refusal, m.source, refusalBody m .badSlot⟩] } })
      ∧ (byteAt m.body 8 ≤ 15 → s.holderOf (tagAt m.body) = none →
          exec .lookAssign s = .next { s with trunk := { s.trunk with
            recvQ := rest, sendQ := s.trunk.sendQ ++ [⟨.refusal, m.source, refusalBody m .unknownCard⟩] } })
      ∧ (∀ i c, byteAt m.body 8 ≤ 15 → s.holderOf (tagAt m.body) = some i → s.card i = some c →
          (c.clips.length ≤ halfAt m.body 4 ∨ halfAt m.body 6 < halfAt m.body 4) →
          exec .lookAssign s = .next { s with trunk := { s.trunk with
            recvQ := rest, sendQ := s.trunk.sendQ ++ [⟨.refusal, m.source, refusalBody m .unknownClip⟩] } }))
    ∧ (m.target = 0 →
      (15 < byteAt m.body 8 ∨ s.holderOf (tagAt m.body) = none
        ∨ ∃ i c, s.holderOf (tagAt m.body) = some i ∧ s.card i = some c
            ∧ (c.clips.length ≤ halfAt m.body 4 ∨ halfAt m.body 6 < halfAt m.body 4)) →
      exec .lookAssign s = .next { s with trunk := { s.trunk with recvQ := rest } })

/-- GRADE_TAKE of a clip's first frame latches the assigned look, or slot 0 with LOOK_MISSING when that slot is EMPTY
(R125, R126, R131); when the clip's latched version has been replaced in its slot, the entry is freed and its frame
counted pixel-skipped (R127, R131, R149). -/
def Obligations.TakeLatchesOrSkips : Prop :=
  (∀ (before after : List FrameEntry) (e : FrameEntry) (i : SlotId) (k : Clip) (s : State),
     s.grade.queue = before ++ e :: after → e.state = .complete → (∀ x ∈ before, x.state = .filling) →
     (∀ x ∈ after, x.isGrading = false) → s.holderOf e.tag = some i → s.clip i e.clip = some k →
     k.latched = none →
     (∀ r, s.look k.assigned = some r → ∃ t k', exec .gradeTake s = .next t
       ∧ t.grade.queue = before ++ { e with state := .grading r.values } :: after
       ∧ t.working = s.working.set e.slot ⟨r.values, some (e.tag, e.clip)⟩
       ∧ t.clip i e.clip = some k' ∧ k' = { k with latched := some ⟨k.assigned, r.version, r.name⟩ }
       ∧ t.looks = s.looks ∧ t.ports = s.ports ∧ t.trunk = s.trunk)
     ∧ (s.look k.assigned = none → ∃ t k', exec .gradeTake s = .next t
       ∧ t.grade.queue = before ++ { e with state := .grading LookValues.neutral } :: after
       ∧ t.clip i e.clip = some k' ∧ k'.latched = some ⟨0, 0, neutralName⟩
       ∧ k'.log.counts = k.log.counts.modify 7 (fun n => min 65535 (n + 1))
       ∧ t.looks = s.looks ∧ t.ports = s.ports ∧ t.trunk = s.trunk))
  ∧ (∀ (before after : List FrameEntry) (e : FrameEntry) (i : SlotId) (k : Clip) (l : Latched) (r : LookRecord)
       (s : State),
       s.grade.queue = before ++ e :: after → e.state = .complete → (∀ x ∈ before, x.state = .filling) →
       (∀ x ∈ after, x.isGrading = false) → s.holderOf e.tag = some i → s.clip i e.clip = some k →
       k.latched = some l → (s.working.get e.slot).owner ≠ some (e.tag, e.clip) →
       s.look l.slot = some r → r.version ≠ l.version →
       ∃ t k', exec .gradeTake s = .next t ∧ t.grade.queue = before ++ after
         ∧ t.clip i e.clip = some k' ∧ k'.skipped = k.skipped + 1 ∧ k'.pendingPos = k.pendingPos.tail
         ∧ k'.checked = k.checked ∧ t.working = s.working ∧ t.looks = s.looks)

/-- GRADE_COMPLETE: the frame is counted pixel-checked, the entry is freed, and the monitor shows it if its slot is
the monitored one (R132, R137, R150, R153). The four checks count and record what they find: channels at the clip
level, the mean luma, the digest of the frame before, the clamped pixels (R151 to R154). A clip whose end has been
handed completes with its last pending frame, once, and queues its FAULT_SUMMARY where any count is not 0 (R155,
R165). Stage 3 saturates about the luma, and a pixel is counted when stage 1 or stage 3 clamps a channel; every code
that leaves the pipeline lies within 0 to 4,095 (R136). -/
def Obligations.GradedFrameIsCheckedAndShown : Prop :=
  (∀ (before after : List FrameEntry) (e : FrameEntry) (v : LookValues) (s : State),
     s.grade.queue = before ++ e :: after → e.state = .grading v →
     (∀ x ∈ before, x.isGrading = false) → (∀ x ∈ after, x.isGrading = false) →
     ∃ t, exec .gradeComplete s = .next t ∧ t.grade.queue = before ++ after
       ∧ t.grade.shown = (if e.slot = s.grade.monitored then (gradePlane v e.plane).1 else s.grade.shown)
       ∧ t.grade.monitored = s.grade.monitored
       ∧ (∀ i k, s.holderOf e.tag = some i → s.clip i e.clip = some k → ∃ k', t.clip i e.clip = some k'
           ∧ k'.checked = k.checked + 1 ∧ k'.skipped = k.skipped ∧ k'.pendingPos = k.pendingPos.tail
           ∧ k'.prevDigest = some (planeDigest e.plane, k.pendingPos.headD 0)
           ∧ k'.complete = (k.complete || (k.clipEnd && decide (k.pendingPos.length ≤ 1))))
       ∧ t.looks = s.looks ∧ t.working = s.working ∧ t.trunk = s.trunk)
  ∧ (∀ (before after : List FrameEntry) (e : FrameEntry) (v : LookValues) (i : SlotId) (k : Clip) (s : State),
       s.grade.queue = before ++ e :: after → e.state = .grading v →
       (∀ x ∈ before, x.isGrading = false) → (∀ x ∈ after, x.isGrading = false) →
       s.holderOf e.tag = some i → s.clip i e.clip = some k →
       let pixels := sourcePixels e.plane
       let position := k.pendingPos.headD 0
       let clipped := pixels.countP fun p =>
         decide (s.cfg.clipLevel ≤ p.r ∨ s.cfg.clipLevel ≤ p.g ∨ s.cfg.clipLevel ≤ p.b)
       let mean := (pixels.map fun p => (1254 * p.r + 2462 * p.g + 380 * p.b + 2048) / 4096).sum / 129600
       let clamped := (gradePlane v e.plane).2
       let exposed := s.cfg.exposurePerMille * 129600 < clipped * 1000
       let black := mean < s.cfg.blackLevel
       let frozen := k.prevDigest = some (planeDigest e.plane, position - 1) ∧ 1 ≤ position
       let lookClips := s.cfg.lookClipPerMille * 129600 < clamped * 1000
       let counted := fun (found : Bool) (n : Option Nat) => n.map fun m => if found then min 65535 (m + 1) else m
       let fault := fun (found : Bool) (kind : FaultKind) (detail : Word) =>
         if found then [FaultRecord.mk kind none position position 1 detail none] else []
       ∃ t k', exec .gradeComplete s = .next t ∧ t.clip i e.clip = some k'
         ∧ k'.log.counts[3]? = counted (decide exposed) k.log.counts[3]?
         ∧ k'.log.counts[4]? = counted (decide black) k.log.counts[4]?
         ∧ k'.log.counts[5]? = counted (decide frozen) k.log.counts[5]?
         ∧ k'.log.counts[6]? = counted (decide lookClips) k.log.counts[6]?
         ∧ (k.log.records = [] → s.cfg.proxyEnable = false → k'.log.records =
             fault (decide exposed) .exposureClip (BitVec.ofNat 32 clipped)
               ++ fault (decide black) .blackFrame (BitVec.ofNat 32 mean)
               ++ fault (decide frozen) .frozenFrame (planeDigest e.plane)
               ++ fault (decide lookClips) .lookClip (BitVec.ofNat 32 clamped)))
  ∧ (∀ (i : SlotId) (n : Nat) (k : Clip) (s : State), s.clip i n = some k →
       let t := completionTest i n s
       ((k.clipEnd = false ∨ k.complete = true ∨ k.pendingPos ≠ []) → t = s)
       ∧ (k.clipEnd = true → k.complete = false → k.pendingPos = [] →
           ((∀ c ∈ k.log.counts, c = 0) → t.clip i n = some { k with complete := true } ∧ t.pubQ = s.pubQ)
           ∧ ((∃ c ∈ k.log.counts, c ≠ 0) →
               ((s.mode = .listen ∨ s.mode = .run) → s.pubQ.length < 64 →
                 t.clip i n = some { k with complete := true, log := { k.log with pending := false } }
                 ∧ t.pubQ = s.pubQ
                     ++ [⟨.faultSummary, s.cfg.reportStation, summaryBody s (.clip i n) k.log 1⟩])
               ∧ ((s.mode = .listen ∨ s.mode = .run) → 64 ≤ s.pubQ.length →
                 t.clip i n = some { k with complete := true, log := { k.log with pending := true } }
                 ∧ t.pubQ = s.pubQ)
               ∧ ((s.mode = .silent ∨ s.mode = .localOnly) →
                 t.clip i n = some { k with complete := true } ∧ t.pubQ = s.pubQ))))
  ∧ (∀ (k : LookValues) (p : Pixel),
       let a := stage1 k.slopeR k.offsetR p.r
       let b := stage1 k.slopeG k.offsetG p.g
       let c := stage1 k.slopeB k.offsetB p.b
       let m : Pixel := ⟨stage2 k.tone (toCode a), stage2 k.tone (toCode b), stage2 k.tone (toCode c)⟩
       let luma := (1254 * m.r + 2462 * m.g + 380 * m.b + 2048) / 4096
       let x := fun v : Nat => (luma : Int) + (((v : Int) - luma) * k.saturation + 512) / 1024
       ((gradePixel k p).1.r : Int) = max 0 (min 4095 (x m.r))
       ∧ ((gradePixel k p).1.g : Int) = max 0 (min 4095 (x m.g))
       ∧ ((gradePixel k p).1.b : Int) = max 0 (min 4095 (x m.b))
       ∧ (gradePixel k p).1.r ≤ 4095 ∧ (gradePixel k p).1.g ≤ 4095 ∧ (gradePixel k p).1.b ≤ 4095
       ∧ ((gradePixel k p).2 = true ↔ ∃ y ∈ [a, b, c, x m.r, x m.g, x m.b], y < 0 ∨ 4095 < y)
       ∧ (m.r ≤ 4095 → m.g ≤ 4095 → m.b ≤ 4095 →
           luma ≤ 4095 ∧ (k.saturation = 1024 → (gradePixel k p).1 = m)
             ∧ (k.saturation = 0 → (gradePixel k p).1 = ⟨luma, luma, luma⟩)))

/-- Stage 1 and its clamp (R134). Stage 2: the tone table between two entries, with floor toward minus infinity
(R135). -/
def Obligations.StagesOneAndTwoAreExact : Prop :=
  (∀ (slope v : Nat) (offset : Int), slope ≤ 4095 → v ≤ 4095 → -2048 ≤ offset → offset ≤ 2047 →
     stage1 slope offset v = ((v * slope + 512) / 1024 : Nat) + offset
     ∧ v * slope ≤ 16769025 ∧ (v * slope + 512) / 1024 ≤ 16376
     ∧ -2048 ≤ stage1 slope offset v ∧ stage1 slope offset v ≤ 18423
     ∧ (toCode (stage1 slope offset v) : Int) = max 0 (min 4095 (stage1 slope offset v))
     ∧ (inCodes (stage1 slope offset v) = false ↔ stage1 slope offset v < 0 ∨ 4095 < stage1 slope offset v)
     ∧ inCodes 0 = true ∧ inCodes 4095 = true)
  ∧ (∀ (tone : List Nat) (a : Nat), tone.length = 33 → (∀ x ∈ tone, x ≤ 4095) → a ≤ 4095 →
       a / 128 ≤ 31 ∧ a - 128 * (a / 128) ≤ 127
       ∧ (stage2 tone a : Int) = (tone.getD (a / 128) 0 : Int)
           + (((tone.getD (a / 128 + 1) 0 : Int) - (tone.getD (a / 128) 0 : Int)) * (a - 128 * (a / 128) : Nat) + 64) / 128
       ∧ min (tone.getD (a / 128) 0) (tone.getD (a / 128 + 1) 0) ≤ stage2 tone a
       ∧ stage2 tone a ≤ max (tone.getD (a / 128) 0) (tone.getD (a / 128 + 1) 0)
       ∧ stage2 tone a ≤ 4095
       ∧ (a = 4095 → a / 128 = 31 ∧ a - 128 * (a / 128) = 127)
       ∧ (tone.getD (a / 128) 0 = 3000 → tone.getD (a / 128 + 1) 0 = 1000 → a - 128 * (a / 128) = 1 →
           stage2 tone a = 2984))

/-! ## Messages of peer copies -/

/-- The port a station claims with: a used port that grants the count, with the most free blocks, DC0 on a tie (R66,
R67). CARD_ANNOUNCE: a station that can host makes an entry in RESERVED and queues its CLAIM; an announce under a
COMPLETE or CANCELLED entry does nothing; under an older entry in another state STALE_RUN_DROPPED is counted, and
outside RUN the entry is gone (R66, R67, R70). That a new entry takes the lowest free place is the model's choice (log
12). -/
def Obligations.AnnounceIsAnsweredByAClaim : Prop :=
  (∀ (n : Nat) (s : State),
     (∀ p, s.claimPort n = some p → s.uses p = true ∧ (s.port p).state = .ready ∧ n ≤ (s.port p).freeBlocks
       ∧ ∀ q, s.uses q = true → (s.port q).state = .ready → n ≤ (s.port q).freeBlocks →
           (s.port q).freeBlocks < (s.port p).freeBlocks ∨ q = p
             ∨ ((s.port q).freeBlocks = (s.port p).freeBlocks ∧ p = .dc0))
     ∧ (s.claimPort n = none → ∀ q, s.uses q = true → (s.port q).state = .ready → (s.port q).freeBlocks < n))
  ∧ (∀ (m : Message) (rest : List Message) (a : AnnounceBody) (s : State),
       s.heads .cardAnnounce m rest → readAnnounce m = some a →
       (∀ place p, s.hostedPlace a.announce.tag = none → s.mode = .run → a.announce.tag.station ≠ s.own →
         a.excluded.contains s.own = false → s.hosted.findIdx? Option.isNone = some place →
         s.claimPort a.announce.blockCount = some p → (s.port p).finishing = false → s.trunk.sendQ.length < 48 →
         ∃ t e, exec .cardAnnounce s = .next t ∧ t.hostedAt place = some e
           ∧ e.tag = a.announce.tag ∧ e.round = a.announce.round ∧ e.port = p ∧ e.state = .reserved
           ∧ e.blockCount = a.announce.blockCount ∧ e.segmentCount = a.announce.segmentCount
           ∧ e.opened = none ∧ e.reservationTimer = some 6000 ∧ e.lastMismatch = 0xFFFF ∧ e.owed = []
           ∧ (t.port p).fig = { (s.port p).fig with reserved := (s.port p).fig.reserved + a.announce.blockCount }
           ∧ t.trunk = { s.trunk with recvQ := rest, sendQ := s.trunk.sendQ ++ [⟨.claim, a.announce.tag.station,
               tagWord a.announce.tag ++ [byteOf a.announce.round, byteOf (portNumber p), 0, 0]
                 ++ le32 (s.port p).freeBlocks⟩] }
           ∧ (∀ q, q ≠ p → t.port q = s.port q) ∧ t.cards = s.cards ∧ t.looks = s.looks)
       ∧ (∀ place e, s.hostedPlace a.announce.tag = some place → s.hostedAt place = some e →
         ((e.state = .complete ∨ e.state = .cancelled) →
           exec .cardAnnounce s = .next { s with trunk := { s.trunk with recvQ := rest } })
         ∧ ((e.state = .reserved ∨ e.state = .receiving ∨ e.state = .orphaned) →
           ∃ t, exec .cardAnnounce s = .next t
             ∧ t.stationLog.counts = s.stationLog.counts.modify 2 (fun n => min 65535 (n + 1))
             ∧ (s.mode ≠ .run → t.hostedAt place = none) ∧ t.cards = s.cards ∧ t.looks = s.looks)))

/-- CLAIM: ranked at the end of an open window of its round; ignored by a record not in CLAIMING (R63). -/
def Obligations.ClaimIsRankedInTheOpenWindow : Prop :=
  ∀ (m : Message) (rest : List Message) (g : Tag) (round : Nat) (i : SlotId) (c : CardRecord) (s : State),
    s.heads .claim m rest → readClaim m = some (g, round) → s.holderOf g = some i → s.card i = some c →
    (∀ wanted ranked len, c.state = .claiming → c.window = .opened wanted ranked len → c.round = round →
      m.source ∉ c.excluded → (∀ x ∈ c.targets, x.key ≠ .peer m.source) → m.source ∉ ranked →
      (s.cfg.claimWindow ≠ 0 ∨ ranked.length + 1 < wanted) →
      exec .claim s = .next { s with
        trunk := { s.trunk with recvQ := rest }
        cards := s.cards.set i (some { c with window := .opened wanted (ranked ++ [m.source]) len }) })
    ∧ ((c.state ≠ .claiming ∨ c.round ≠ round ∨ m.source ∈ c.excluded
        ∨ (∃ wanted ranked len, c.window = .opened wanted ranked len ∧ m.source ∈ ranked)
        ∨ c.window = .none ∨ (∃ x ∈ c.targets, x.key = .peer m.source)) →
      exec .claim s = .next { s with trunk := { s.trunk with recvQ := rest } })

/-- CLAIM_REPLY: a RESERVED entry of its round enters RECEIVING when it names this station and is freed when it does
not; every other entry ignores it (R69). -/
def Obligations.ClaimReplyDecidesTheEntry : Prop :=
  ∀ (m : Message) (rest : List Message) (g : Tag) (round : Nat) (stations : List Nat) (s : State),
    s.heads .claimReply m rest → readClaimReply m = some (g, round, stations) →
    (s.hostedPlace g = none →
      exec .claimReply s = .next { s with trunk := { s.trunk with recvQ := rest } })
    ∧ ∀ place e, s.hostedPlace g = some place → s.hostedAt place = some e →
      ((e.state ≠ .reserved ∨ e.round ≠ round) →
        exec .claimReply s = .next { s with trunk := { s.trunk with recvQ := rest } })
      ∧ (e.state = .reserved → e.round = round → s.own ∈ stations →
        exec .claimReply s = .next { s with
          trunk := { s.trunk with recvQ := rest }
          hosted := s.hosted.set place (some { e with state := .receiving, reservationTimer := none }) })
      ∧ (e.state = .reserved → e.round = round → s.own ∉ stations →
        ∃ t, exec .claimReply s = .next t ∧ t.hostedAt place = none
          ∧ (∀ r, (s.port e.port).runs.find? (fun x => x.id == e.run) = some r →
              (s.port e.port).acceptedBlocks e.run = [] →
              (t.port e.port).fig = { (s.port e.port).fig with
                reserved := (s.port e.port).fig.reserved - r.reservation })
          ∧ t.cards = s.cards ∧ t.stationLog = s.stationLog ∧ t.looks = s.looks)

/-- RUN_END and RUN_CANCEL: a RESERVED or ORPHANED entry is freed, a RECEIVING one becomes COMPLETE when RUN_END names
it VERIFIED and CANCELLED otherwise, and is freed once its port holds no item of it (R76 to R78). What it still owed
to report is not queued (log 50). -/
def Obligations.EndOfRunSettlesTheEntry : Prop :=
  ∀ (m : Message) (rest : List Message) (g : Tag) (place : Nat) (e : HostedEntry) (s : State),
    s.hostedPlace g = some place → s.hostedAt place = some e →
    let settles := fun (c : Instr) (st : HostedState) =>
      ((e.state = .complete ∨ e.state = .cancelled) →
        exec c s = .next { s with trunk := { s.trunk with recvQ := rest } })
      ∧ ((e.state = .reserved ∨ e.state = .orphaned) →
        ∃ t, exec c s = .next t ∧ t.hostedAt place = none ∧ t.cards = s.cards ∧ t.looks = s.looks)
      ∧ (e.state = .receiving → ∃ t, exec c s = .next t ∧ t.cards = s.cards ∧ t.looks = s.looks
        ∧ t.trunk.sendQ = s.trunk.sendQ
        ∧ (t.hostedAt place = none ∨ t.hostedAt place = some { e with state := st, opened := none, owed := [] })
        ∧ ((∃ b a w d, (s.port e.port).serving = some (.write e.run b a w d)) →
            t.hostedAt place = some { e with state := st, opened := none, owed := [] })
        ∧ ((s.port e.port).acceptedBlocks e.run = [] → t.hostedAt place = none))
    (s.heads .runCancel m rest → readRunCancel m = some g → settles .runCancel .cancelled)
    ∧ (∀ listed, s.heads .runEnd m rest → readRunEnd m = some (g, listed) →
      (s.own, true) ∈ listed → (∀ x ∈ listed, x.1 = s.own → x.2 = true) → settles .runEnd .complete)
    ∧ (∀ listed, s.heads .runEnd m rest → readRunEnd m = some (g, listed) →
      (∀ x ∈ listed, x.1 = s.own → x.2 = false) → settles .runEnd .cancelled)

/-- SEGMENT_REPORT: a WRITTEN report that agrees verifies the cell, a MISSING_BLOCKS report lists it again,
WRITE_FAILED and DEST_FULL fail the target; a report that is not current is ignored (R81, R105, R109, R110). The
premise on the waiting reads rules out states that no run reaches: StepsKeepTheCourseOfRecords has it as an invariant. -/
def Obligations.ReportIsJudgedAgainstItsCell : Prop :=
  ∀ (m : Message) (rest : List Message) (r : Report) (i : SlotId) (c : CardRecord) (s : State),
    s.heads .segmentReport m rest → readReport m = some r → s.holderOf r.tag = some i → s.card i = some c →
    (∀ x T, (c.state = .copying ∨ c.state = .settling) → c.target (.peer m.source) = some x → x.state = .writing →
      r.segment < c.segmentCount → x.cells[r.segment]? = some ⟨.sent, r.attempt, T⟩ →
      (∀ row, r.outcome = .written → c.rows[r.segment]? = some row → r.present = row.blocks →
        row.fold = some r.fold → r.first = 0xFFFF →
        ∃ t c' x', exec .segmentReport s = .next t ∧ t.card i = some c' ∧ c'.target (.peer m.source) = some x'
          ∧ x'.cells[r.segment]? = some ⟨.verified, r.attempt, none⟩ ∧ t.looks = s.looks ∧ t.hosted = s.hosted)
      ∧ (r.outcome = .missingBlocks → r.attempt < 3 → c.resend.length < 64 →
        ∃ t c' x', exec .segmentReport s = .next t ∧ t.card i = some c' ∧ c'.target (.peer m.source) = some x'
          ∧ x'.cells[r.segment]? = some ⟨.resendListed, r.attempt + 1, none⟩
          ∧ c'.resend = c.resend ++ [⟨r.segment, .peer m.source, r.attempt + 1⟩]
          ∧ c'.log.counts = c.log.counts.modify 3 (fun n => min 65535 (n + 1)) ∧ t.looks = s.looks)
      ∧ ((r.outcome = .writeFailed ∨ r.outcome = .destFull) →
        ((s.slot i).state = .reading ∨ (s.slot i).waiting = []) →
        ∃ t c', exec .segmentReport s = .next t ∧ t.card i = some c'
          ∧ (∀ x', c'.target (.peer m.source) = some x' → x'.state = .failed)
          ∧ (s.takesControl = true →
              ⟨.runCancel, m.source, runCancelBody c.tag .targetDropped⟩ ∈ t.trunk.sendQ)
          ∧ t.looks = s.looks))
    ∧ ((c.state = .abandoned ∨ c.state = .releasable ∨ c.state = .held ∨ c.state = .overridden ∨ c.state = .short
        ∨ c.target (.peer m.source) = none ∨ c.segmentCount ≤ r.segment
        ∨ (∃ x, c.target (.peer m.source) = some x
            ∧ (x.state ≠ .writing ∨ x.cells[r.segment]? = none
              ∨ ∃ cell, x.cells[r.segment]? = some cell ∧ (cell.state ≠ .sent ∨ cell.attempt ≠ r.attempt)))) →
      exec .segmentReport s = .next { s with trunk := { s.trunk with recvQ := rest } })

/-! ## Console requests -/

/-- REPLY_KIND_REMOVED and UNKNOWN_KIND_REQUEST: kinds that no block owns leave the queue without effect, and an
unknown kind addressed here is refused as MALFORMED (R10, R168, R169). The ten console requests: one of a wrong
length, or with an enumerated byte above 1, is refused as MALFORMED when addressed here and ignored when broadcast
(R168, R169). That word 1 of the refusal is then 0, whatever the length of the body, is log 19. -/
def Obligations.UnownedAndMalformedRequestsLeaveTheQueue : Prop :=
  (∀ (m : Message) (rest : List Message) (s : State), s.trunk.recvQ = m :: rest →
     ((m.code = 0x41 ∨ m.code = 0x42 ∨ m.code = 0x48 ∨ m.code = 0x49 ∨ m.code = 0x4A ∨ m.code = 0x4B) →
       exec .replyKindRemoved s = .next { s with trunk := { s.trunk with recvQ := rest } })
     ∧ (Kind.ofCode m.code = none → m.target ≠ 0 → s.takesControl = true →
       exec .unknownKindRequest s = .next { s with trunk := { s.trunk with
         recvQ := rest
         sendQ := s.trunk.sendQ ++ [⟨.refusal, m.source, [m.code, 6, 0, 0, 0, 0, 0, 0]⟩] } }))
  ∧ (∀ (m : Message) (rest : List Message) (s : State), s.trunk.recvQ = m :: rest →
       ∀ q ∈ [(Kind.cardQuery, Instr.cardQuery), (.clipQuery, .clipQuery), (.stationQuery, .stationQuery),
           (.hold, .hold), (.forceRelease, .forceRelease), (.retryCopy, .retryCopy),
           (.monitorSelect, .monitorSelect), (.clearOrphans, .clearOrphans),
           (.clearAbandoned, .clearAbandoned), (.restart, .restart)],
         m.code = q.1.code →
         (m.body.length ≠ 4 * q.1.requestWords
           ∨ (q.1 = .cardQuery ∧ 1 < byteAt m.body 4) ∨ (q.1 = .hold ∧ 1 < byteAt m.body 4)
           ∨ (q.1 = .stationQuery ∧ 1 < byteAt m.body 0)) →
         (m.target = 0 → exec q.2 s = .next { s with trunk := { s.trunk with recvQ := rest } })
         ∧ (m.target ≠ 0 → s.takesControl = true → exec q.2 s = .next { s with trunk := { s.trunk with
             recvQ := rest
             sendQ := s.trunk.sendQ ++ [⟨.refusal, m.source, [m.code, 6, 0, 0, 0, 0, 0, 0]⟩] } }))

/-- CARD_QUERY and CLIP_QUERY: the reply is queued to the request's source, or the tag, slot or clip is refused (R170,
R171). STATION_QUERY: the reply reports the sync-lost flag as it stood, and the flag is then cleared on request (R13,
R172). The status replies have the lengths of their tables: 105, 104 and 109 + 4 × P + 7 × H words. -/
def Obligations.QueriesAreAnswered : Prop :=
  (∀ (m : Message) (rest : List Message) (s : State), s.takesControl = true → m.body.length = 8 →
     let sends := fun (k : Kind) (body : List Byte) => Host.Outcome.next (φ := Fault) (ρ := Refusal)
       { s with trunk := { s.trunk with recvQ := rest, sendQ := s.trunk.sendQ ++ [⟨k, m.source, body⟩] } }
     (s.heads .cardQuery m rest →
       (∀ i c, byteAt m.body 4 = 0 → s.holderOf (tagAt m.body) = some i → s.card i = some c →
         exec .cardQuery s = sends .cardStatus (cardStatusBody i c))
       ∧ (∀ i c, byteAt m.body 4 = 1 → slotOfNumber (byteAt m.body 5) = some i → s.card i = some c →
         exec .cardQuery s = sends .cardStatus (cardStatusBody i c))
       ∧ (byteAt m.body 4 = 1 → 3 < byteAt m.body 5 → m.target ≠ 0 →
         exec .cardQuery s = sends .refusal (refusalBody m .badSlot))
       ∧ (byteAt m.body 4 = 0 → s.holderOf (tagAt m.body) = none → m.target ≠ 0 →
         exec .cardQuery s = sends .refusal (refusalBody m .unknownCard)))
     ∧ (s.heads .clipQuery m rest →
       (∀ i c k, s.holderOf (tagAt m.body) = some i → s.card i = some c → c.clips[halfAt m.body 4]? = some k →
         exec .clipQuery s = sends .clipStatus (clipStatusBody c.tag (halfAt m.body 4) k))
       ∧ (∀ i c, s.holderOf (tagAt m.body) = some i → s.card i = some c → c.clips.length ≤ halfAt m.body 4 →
         m.target ≠ 0 → exec .clipQuery s = sends .refusal (refusalBody m .unknownClip))))
  ∧ (∀ (m : Message) (rest : List Message) (s : State),
       s.heads .stationQuery m rest → m.body.length = 4 → byteAt m.body 0 ≤ 1 → s.takesControl = true →
       exec .stationQuery s = .next { s with trunk := { s.trunk with
         recvQ := rest, sendQ := s.trunk.sendQ ++ [⟨.stationStatus, m.source, stationStatusBody s⟩]
         syncLost := if byteAt m.body 0 = 1 then false else s.trunk.syncLost } }
       ∧ (stationStatusBody s).getD 1 0
         = byteOf ((if s.trunk.syncLost then 1 else 0) + (if s.trunk.locked then 2 else 0)
             + (if s.stationLog.pending then 4 else 0)))
  ∧ ((∀ i c, (cardStatusBody i c).length = 4 * 105)
     ∧ (∀ g n k, (clipStatusBody g n k).length = 4 * 104)
     ∧ (∀ s : State, (stationStatusBody s).length
         = 4 * (109 + 4 * s.trunk.presence.length + 7 * (s.hosted.countP Option.isSome))))

/-- HOLD by the table of R56: the flag follows the request, RELEASABLE and HELD change into each other, and an
ABANDONED record or an unknown tag is refused. FORCE_RELEASE: HELD or SHORT becomes OVERRIDDEN, its lamp blinking
green, its targets, segment table and faults kept; any other state, and an unknown tag, is refused (R57). That a blink
starts lit is log 17, and that a request addressed here is acted on in SILENT too, once it is in the receive queue, is
the model's choice (log 49). -/
def Obligations.HoldAndForceReleaseFollowTheirTables : Prop :=
  (∀ (m : Message) (rest : List Message) (s : State),
     s.heads .hold m rest → m.body.length = 8 → byteAt m.body 4 ≤ 1 →
     (∀ i c, s.holderOf (tagAt m.body) = some i → s.card i = some c → c.state ≠ .abandoned →
       ∃ c', exec .hold s = .next { s with
           trunk := { s.trunk with recvQ := rest }, cards := s.cards.set i (some c') }
         ∧ c'.hold = decide (byteAt m.body 4 = 1)
         ∧ c' = { c with state := c'.state, hold := c'.hold, lampLit := c'.lampLit }
         ∧ (c.state = .releasable → byteAt m.body 4 = 1 → c'.state = .held)
         ∧ (c.state = .held → byteAt m.body 4 = 0 → c.sourceErrors = 0 → c'.state = .releasable)
         ∧ (¬ (c.state = .releasable ∧ byteAt m.body 4 = 1) →
             ¬ (c.state = .held ∧ byteAt m.body 4 = 0 ∧ c.sourceErrors = 0) →
             c'.state = c.state ∧ c'.lampLit = c.lampLit))
     ∧ (∀ i c, s.holderOf (tagAt m.body) = some i → s.card i = some c → c.state = .abandoned → m.target ≠ 0 →
       s.takesControl = true → exec .hold s = .next { s with trunk := { s.trunk with
         recvQ := rest, sendQ := s.trunk.sendQ ++ [⟨.refusal, m.source, refusalBody m .wrongState⟩] } })
     ∧ (s.holderOf (tagAt m.body) = none → m.target ≠ 0 → s.takesControl = true →
       exec .hold s = .next { s with trunk := { s.trunk with
         recvQ := rest, sendQ := s.trunk.sendQ ++ [⟨.refusal, m.source, refusalBody m .unknownCard⟩] } }))
  ∧ (∀ (m : Message) (rest : List Message) (i : SlotId) (c : CardRecord) (s : State),
       s.heads .forceRelease m rest → m.body.length = 4 → s.holderOf (tagAt m.body) = some i →
       s.card i = some c →
       ((c.state = .held ∨ c.state = .short) →
         exec .forceRelease s = .next { s with
           trunk := { s.trunk with recvQ := rest }
           cards := s.cards.set i (some { c with state := .overridden, lampLit := true, retryTimer := none }) })
       ∧ (c.state ≠ .held → c.state ≠ .short →
         (m.target = 0 → exec .forceRelease s = .next { s with trunk := { s.trunk with recvQ := rest } })
         ∧ (m.target ≠ 0 → s.takesControl = true → exec .forceRelease s = .next { s with trunk := { s.trunk with
             recvQ := rest, sendQ := s.trunk.sendQ ++ [⟨.refusal, m.source, refusalBody m .wrongState⟩] } })))
  ∧ (∀ (m : Message) (rest : List Message) (s : State),
       s.heads .forceRelease m rest → m.body.length = 4 → s.holderOf (tagAt m.body) = none →
       (m.target = 0 → exec .forceRelease s = .next { s with trunk := { s.trunk with recvQ := rest } })
       ∧ (m.target ≠ 0 → s.takesControl = true → exec .forceRelease s = .next { s with trunk := { s.trunk with
           recvQ := rest, sendQ := s.trunk.sendQ ++ [⟨.refusal, m.source, refusalBody m .unknownCard⟩] } }))

/-- MONITOR_SELECT and CLEAR_ABANDONED: the named slot is selected, the shown frame unchanged; an ABANDONED record
becomes EMPTY; a slot above 3 or another state is refused (R59, R138, R175). CLEAR_ORPHANS frees every ORPHANED entry
and leaves the others, and the reservation of one whose writes are all done returns to its port (R87, R175). That a
request addressed here is acted on in SILENT too, once it is in the receive queue, is the model's choice (log 49). -/
def Obligations.SlotAndOrphanRequestsAreTaken : Prop :=
  (∀ (m : Message) (rest : List Message) (s : State), m.body.length = 4 →
     let refused := fun (r : RefusalReason) => Host.Outcome.next (φ := Fault) (ρ := Refusal)
       { s with trunk := { s.trunk with
         recvQ := rest, sendQ := s.trunk.sendQ ++ [⟨.refusal, m.source, refusalBody m r⟩] } }
     (s.heads .monitorSelect m rest →
       (∀ i, slotOfNumber (byteAt m.body 0) = some i → exec .monitorSelect s = .next { s with
         trunk := { s.trunk with recvQ := rest }, grade := { s.grade with monitored := i } })
       ∧ (3 < byteAt m.body 0 → m.target ≠ 0 → s.takesControl = true →
         exec .monitorSelect s = refused .badSlot))
     ∧ (s.heads .clearAbandoned m rest →
       (∀ i c, slotOfNumber (byteAt m.body 0) = some i → s.card i = some c → c.state = .abandoned →
         exec .clearAbandoned s = .next { s with
           trunk := { s.trunk with recvQ := rest }, cards := s.cards.set i none })
       ∧ (∀ i, slotOfNumber (byteAt m.body 0) = some i → (∀ c, s.card i = some c → c.state ≠ .abandoned) →
         m.target ≠ 0 → s.takesControl = true → exec .clearAbandoned s = refused .wrongState)
       ∧ (3 < byteAt m.body 0 → m.target ≠ 0 → s.takesControl = true →
         exec .clearAbandoned s = refused .badSlot)))
  ∧ (∀ (m : Message) (rest : List Message) (s : State), s.heads .clearOrphans m rest → m.body = [] →
       ∃ t, exec .clearOrphans s = .next t
         ∧ (∀ place e, place < 8 → s.hostedAt place = some e →
             (e.state = .orphaned → t.hostedAt place = none) ∧ (e.state ≠ .orphaned → t.hostedAt place = some e))
         ∧ (∀ place e r, place < 8 → s.hostedAt place = some e → e.state = .orphaned →
             (s.port e.port).runs.find? (fun x => x.id == e.run) = some r → (s.port e.port).acceptedBlocks e.run = [] →
             (∀ n e', n < 8 → n ≠ place → s.hostedAt n = some e' → e'.state = .orphaned → e'.port ≠ e.port) →
             (t.port e.port).fig = { (s.port e.port).fig with
               reserved := (s.port e.port).fig.reserved - r.reservation }
             ∧ ∀ x ∈ (t.port e.port).runs, x.id ≠ e.run)
         ∧ t.trunk.recvQ = rest ∧ t.trunk.sendQ = s.trunk.sendQ ∧ t.cards = s.cards ∧ t.looks = s.looks
         ∧ t.stationLog = s.stationLog)

/-- RESTART: a warm restart keeps the image, the looks, the presence table, the receiver lock and each port's state,
class, capacity and used blocks, and the card serial counter; returns queues, fault lists, hosted table, working looks
and the Grade Pipeline to their start values; lets a block write in service finish; and mounts the seated cards again,
in slot order, with serials that go on from the kept card serial counter (R40, R162, R174, R181, R182). That a RESTART
addressed here is taken in SILENT too, once it is in the receive queue, is the model's choice (log 49). -/
def Obligations.WarmRestartKeepsWhatItSays : Prop :=
  ∀ (m : Message) (rest : List Message) (s : State), s.heads .restart m rest → m.body = [] →
    ∃ t, exec .restart s = .next t
      ∧ t.image = s.image ∧ t.looks = s.looks ∧ t.trunk.presence = s.trunk.presence
      ∧ t.trunk.locked = s.trunk.locked ∧ t.trunk.syncLost = false ∧ t.trunk.sendQ = [] ∧ t.trunk.recvQ = []
      ∧ t.trunk.staging = [] ∧ t.trunk.bulk = [] ∧ t.trunk.deferral = false ∧ t.trunk.tx = none ∧ t.pubQ = []
      ∧ (s.mode = .localOnly → t.trunk.mode = .localOnly)
      ∧ (s.mode ≠ .localOnly → t.trunk.mode = .listen
          ∧ t.trunk.listenTimer = some (2 * s.cfg.presenceInterval))
      ∧ t.stationLog = ⟨[], [0, 0, 0, 0, 0], false⟩
      ∧ (∀ place, t.hostedAt place = none)
      ∧ t.grade = State.reset.grade ∧ t.working = State.reset.working
      ∧ (∀ p, (t.port p).state = (s.port p).state ∧ (t.port p).cls = (s.port p).cls
          ∧ (t.port p).fig.capacity = (s.port p).fig.capacity ∧ (t.port p).fig.used = (s.port p).fig.used)
      ∧ (∀ p, (∀ x, (s.port p).serving = some x → x.isWrite = false) →
          (t.port p).fig.reserved = 0 ∧ (t.port p).queue = [] ∧ (t.port p).serving = none
            ∧ (t.port p).jobs = [] ∧ (t.port p).runs = [] ∧ (t.port p).capture = none)
      ∧ (∀ p x, (s.port p).serving = some x → x.isWrite = true →
          (t.port p).finishing = true ∧ (t.port p).serving = some x ∧ (t.port p).room = 0)
      ∧ (∀ i, s.seated.get i = none → t.card i = none ∧ (t.slot i).state = .empty)
      ∧ (∀ i size, s.seated.get i = some size → (t.slot i).state = .mounting
          ∧ ∃ c, t.card i = some c ∧ c.state = .indexing ∧ c.round = 1
            ∧ c.tag = ⟨s.own, s.serial + BitVec.ofNat 16
                ((SlotId.inOrder.takeWhile fun j => j != i).countP fun j => (s.seated.get j).isSome)⟩)
      ∧ t.serial = s.serial + BitVec.ofNat 16 (SlotId.inOrder.countP fun j => (s.seated.get j).isSome)

/-! ## Invariants -/

/-- Each invariant below holds at reset. -/
def Obligations.InvariantsHoldAtReset : Prop :=
  State.reset.looksSound ∧ State.reset.fits ∧ State.reset.queuesBounded ∧ State.reset.buffersBounded
    ∧ State.reset.imageSound ∧ presenceOrdered State.reset.trunk.presence ∧ State.reset.placesBounded
    ∧ State.reset.coursesSound ∧ State.reset.faultsSound ∧ State.reset.framesBalance ∧ State.reset.framesPending

/-- Every step keeps the course of each slot with its card record: among its parts, a RELEASABLE record has at least K
verified copies, no source error and no hold (R51, R56), no station and no port is a target twice (R42), a cell that
is under way and a resend entry belong to a target in WRITING (R103, R111), a slot reads only in COPYING and SETTLING,
and outside READING nothing waits in it (R29, R48, R50). CourseSound and TargetsSound list them all, each with its
rule. -/
def Obligations.StepsKeepTheCourseOfRecords : Prop :=
  ∀ s t : State, s.coursesSound → step s = .next t → t.coursesSound

/-- Every step keeps each fault list within eight records of its level, its counts within 16 bits and no smaller than
the records (R156, R157, R158), and the frames seen of each clip equal to those checked, skipped and pending (R37,
R149, R150). The premise on the frame queue rules out a card serial that has come round within the life of a queued
frame. -/
def Obligations.StepsKeepFaultListsAndFrameCounts : Prop :=
  (∀ s t : State, s.faultsSound → step s = .next t → t.faultsSound)
  ∧ (∀ s t : State, s.framesBalance → s.framesPending → step s = .next t → t.framesBalance)

/-- Every step keeps used blocks + reserved blocks within the capacity of each port (R85). -/
def Obligations.StepsKeepSpaceWithinCapacity : Prop :=
  ∀ s t : State, s.fits → step s = .next t → t.fits

/-- Every step keeps the send, receive and publication queues within 48, 32 and 64 messages (R8, R10, R163), the bulk
receive buffers within 4 and the frame queue within 8 (R11, R130), the staging buffers within 3, each work queue
within 16 and each resend list within 64 (R9, R89, R111). The premise on the buffer numbers rules out states that no
run reaches. -/
def Obligations.StepsKeepQueuesAndBuffersBounded : Prop :=
  (∀ s t : State, s.queuesBounded → step s = .next t → t.queuesBounded)
  ∧ (∀ s t : State, s.buffersBounded → s.trunk.bulk.map BulkBlock.buffer ⊆ [0, 1, 2, 3] →
       (s.trunk.bulk.map BulkBlock.buffer).Nodup → step s = .next t →
       t.buffersBounded ∧ t.trunk.bulk.map BulkBlock.buffer ⊆ [0, 1, 2, 3] ∧ (t.trunk.bulk.map BulkBlock.buffer).Nodup)
  ∧ (∀ s t : State, s.placesBounded → (s.trunk.bulk.map BulkBlock.buffer).Nodup → step s = .next t → t.placesBounded)

/-- Every step keeps the neutral look in slot 0 and the sixteen places of the look table (R116, R117), the image in
range (R178, R179), and the presence table in order of station number, with no number twice (R16). -/
def Obligations.StepsKeepLooksImageAndPresence : Prop :=
  (∀ s t : State, s.looksSound → step s = .next t → t.looksSound)
  ∧ (∀ s t : State, s.imageSound → step s = .next t → t.imageSound)
  ∧ (∀ s t : State, presenceOrdered s.trunk.presence → step s = .next t → presenceOrdered t.trunk.presence)
end

