-- ==== Sys2Proof/Laws/Bytes.lean ====
section
/-! SUPPORT. Byte strings of a fixed length (log 5). -/

namespace Sys2Proof.Machine

/-- A string of n bytes has n bytes. -/
@[simp] theorem length_padTo (n : Nat) (bs : List Byte) : (padTo n bs).length = n := by
  simp only [padTo, List.length_take, List.length_append, List.length_replicate]; omega

/-- No bytes, continued to n, are n zeros. -/
theorem padTo_nil (n : Nat) : padTo n [] = List.replicate n 0 := by
  simp only [padTo, List.nil_append, List.length_nil, Nat.sub_zero]
  exact List.take_of_length_le (Nat.le_of_eq List.length_replicate)

/-- A string of n bytes already is left as it is. -/
theorem padTo_of_length {n : Nat} {bs : List Byte} (h : bs.length = n) : padTo n bs = bs := by
  simp only [padTo, h, Nat.sub_self, List.replicate_zero, List.append_nil]
  exact List.take_of_length_le (Nat.le_of_eq h)

end Sys2Proof.Machine
end

