-- ==== Sys2Proof/Laws/State.lean ====
section
/-! SUPPORT. What each update of the state leaves and what it sets: one lemma per field and update. -/

namespace Sys2Proof.Machine

/-! ### modTrunk -/

@[simp] theorem State.modTrunk_pending (s : State) (f : Trunk → Trunk) : (s.modTrunk f).pending = s.pending := rfl
@[simp] theorem State.modTrunk_image (s : State) (f : Trunk → Trunk) : (s.modTrunk f).image = s.image := rfl
@[simp] theorem State.modTrunk_seated (s : State) (f : Trunk → Trunk) : (s.modTrunk f).seated = s.seated := rfl
@[simp] theorem State.modTrunk_trunk (s : State) (f : Trunk → Trunk) : (s.modTrunk f).trunk = f s.trunk := rfl
@[simp] theorem State.modTrunk_line (s : State) (f : Trunk → Trunk) : (s.modTrunk f).line = s.line := rfl
@[simp] theorem State.modTrunk_slots (s : State) (f : Trunk → Trunk) : (s.modTrunk f).slots = s.slots := rfl
@[simp] theorem State.modTrunk_cards (s : State) (f : Trunk → Trunk) : (s.modTrunk f).cards = s.cards := rfl
@[simp] theorem State.modTrunk_serial (s : State) (f : Trunk → Trunk) : (s.modTrunk f).serial = s.serial := rfl
@[simp] theorem State.modTrunk_hosted (s : State) (f : Trunk → Trunk) : (s.modTrunk f).hosted = s.hosted := rfl
@[simp] theorem State.modTrunk_nextRun (s : State) (f : Trunk → Trunk) : (s.modTrunk f).nextRun = s.nextRun := rfl
@[simp] theorem State.modTrunk_ports (s : State) (f : Trunk → Trunk) : (s.modTrunk f).ports = s.ports := rfl
@[simp] theorem State.modTrunk_looks (s : State) (f : Trunk → Trunk) : (s.modTrunk f).looks = s.looks := rfl
@[simp] theorem State.modTrunk_working (s : State) (f : Trunk → Trunk) : (s.modTrunk f).working = s.working := rfl
@[simp] theorem State.modTrunk_grade (s : State) (f : Trunk → Trunk) : (s.modTrunk f).grade = s.grade := rfl
@[simp] theorem State.modTrunk_stationLog (s : State) (f : Trunk → Trunk) : (s.modTrunk f).stationLog = s.stationLog := rfl
@[simp] theorem State.modTrunk_pubQ (s : State) (f : Trunk → Trunk) : (s.modTrunk f).pubQ = s.pubQ := rfl

/-! ### modSlot -/

@[simp] theorem State.modSlot_pending (s : State) (i : SlotId) (f : SlotReader → SlotReader) : (s.modSlot i f).pending = s.pending := rfl
@[simp] theorem State.modSlot_image (s : State) (i : SlotId) (f : SlotReader → SlotReader) : (s.modSlot i f).image = s.image := rfl
@[simp] theorem State.modSlot_seated (s : State) (i : SlotId) (f : SlotReader → SlotReader) : (s.modSlot i f).seated = s.seated := rfl
@[simp] theorem State.modSlot_trunk (s : State) (i : SlotId) (f : SlotReader → SlotReader) : (s.modSlot i f).trunk = s.trunk := rfl
@[simp] theorem State.modSlot_line (s : State) (i : SlotId) (f : SlotReader → SlotReader) : (s.modSlot i f).line = s.line := rfl
@[simp] theorem State.modSlot_slots (s : State) (i : SlotId) (f : SlotReader → SlotReader) : (s.modSlot i f).slots = s.slots.set i (f (s.slots.get i)) := rfl
@[simp] theorem State.modSlot_cards (s : State) (i : SlotId) (f : SlotReader → SlotReader) : (s.modSlot i f).cards = s.cards := rfl
@[simp] theorem State.modSlot_serial (s : State) (i : SlotId) (f : SlotReader → SlotReader) : (s.modSlot i f).serial = s.serial := rfl
@[simp] theorem State.modSlot_hosted (s : State) (i : SlotId) (f : SlotReader → SlotReader) : (s.modSlot i f).hosted = s.hosted := rfl
@[simp] theorem State.modSlot_nextRun (s : State) (i : SlotId) (f : SlotReader → SlotReader) : (s.modSlot i f).nextRun = s.nextRun := rfl
@[simp] theorem State.modSlot_ports (s : State) (i : SlotId) (f : SlotReader → SlotReader) : (s.modSlot i f).ports = s.ports := rfl
@[simp] theorem State.modSlot_looks (s : State) (i : SlotId) (f : SlotReader → SlotReader) : (s.modSlot i f).looks = s.looks := rfl
@[simp] theorem State.modSlot_working (s : State) (i : SlotId) (f : SlotReader → SlotReader) : (s.modSlot i f).working = s.working := rfl
@[simp] theorem State.modSlot_grade (s : State) (i : SlotId) (f : SlotReader → SlotReader) : (s.modSlot i f).grade = s.grade := rfl
@[simp] theorem State.modSlot_stationLog (s : State) (i : SlotId) (f : SlotReader → SlotReader) : (s.modSlot i f).stationLog = s.stationLog := rfl
@[simp] theorem State.modSlot_pubQ (s : State) (i : SlotId) (f : SlotReader → SlotReader) : (s.modSlot i f).pubQ = s.pubQ := rfl

/-! ### setCard -/

@[simp] theorem State.setCard_pending (s : State) (i : SlotId) (c : Option CardRecord) : (s.setCard i c).pending = s.pending := rfl
@[simp] theorem State.setCard_image (s : State) (i : SlotId) (c : Option CardRecord) : (s.setCard i c).image = s.image := rfl
@[simp] theorem State.setCard_seated (s : State) (i : SlotId) (c : Option CardRecord) : (s.setCard i c).seated = s.seated := rfl
@[simp] theorem State.setCard_trunk (s : State) (i : SlotId) (c : Option CardRecord) : (s.setCard i c).trunk = s.trunk := rfl
@[simp] theorem State.setCard_line (s : State) (i : SlotId) (c : Option CardRecord) : (s.setCard i c).line = s.line := rfl
@[simp] theorem State.setCard_slots (s : State) (i : SlotId) (c : Option CardRecord) : (s.setCard i c).slots = s.slots := rfl
@[simp] theorem State.setCard_cards (s : State) (i : SlotId) (c : Option CardRecord) : (s.setCard i c).cards = s.cards.set i c := rfl
@[simp] theorem State.setCard_serial (s : State) (i : SlotId) (c : Option CardRecord) : (s.setCard i c).serial = s.serial := rfl
@[simp] theorem State.setCard_hosted (s : State) (i : SlotId) (c : Option CardRecord) : (s.setCard i c).hosted = s.hosted := rfl
@[simp] theorem State.setCard_nextRun (s : State) (i : SlotId) (c : Option CardRecord) : (s.setCard i c).nextRun = s.nextRun := rfl
@[simp] theorem State.setCard_ports (s : State) (i : SlotId) (c : Option CardRecord) : (s.setCard i c).ports = s.ports := rfl
@[simp] theorem State.setCard_looks (s : State) (i : SlotId) (c : Option CardRecord) : (s.setCard i c).looks = s.looks := rfl
@[simp] theorem State.setCard_working (s : State) (i : SlotId) (c : Option CardRecord) : (s.setCard i c).working = s.working := rfl
@[simp] theorem State.setCard_grade (s : State) (i : SlotId) (c : Option CardRecord) : (s.setCard i c).grade = s.grade := rfl
@[simp] theorem State.setCard_stationLog (s : State) (i : SlotId) (c : Option CardRecord) : (s.setCard i c).stationLog = s.stationLog := rfl
@[simp] theorem State.setCard_pubQ (s : State) (i : SlotId) (c : Option CardRecord) : (s.setCard i c).pubQ = s.pubQ := rfl

/-! ### modCard -/

@[simp] theorem State.modCard_pending (s : State) (i : SlotId) (f : CardRecord → CardRecord) : (s.modCard i f).pending = s.pending := rfl
@[simp] theorem State.modCard_image (s : State) (i : SlotId) (f : CardRecord → CardRecord) : (s.modCard i f).image = s.image := rfl
@[simp] theorem State.modCard_seated (s : State) (i : SlotId) (f : CardRecord → CardRecord) : (s.modCard i f).seated = s.seated := rfl
@[simp] theorem State.modCard_trunk (s : State) (i : SlotId) (f : CardRecord → CardRecord) : (s.modCard i f).trunk = s.trunk := rfl
@[simp] theorem State.modCard_line (s : State) (i : SlotId) (f : CardRecord → CardRecord) : (s.modCard i f).line = s.line := rfl
@[simp] theorem State.modCard_slots (s : State) (i : SlotId) (f : CardRecord → CardRecord) : (s.modCard i f).slots = s.slots := rfl
@[simp] theorem State.modCard_cards (s : State) (i : SlotId) (f : CardRecord → CardRecord) : (s.modCard i f).cards = s.cards.set i ((s.cards.get i).map f) := rfl
@[simp] theorem State.modCard_serial (s : State) (i : SlotId) (f : CardRecord → CardRecord) : (s.modCard i f).serial = s.serial := rfl
@[simp] theorem State.modCard_hosted (s : State) (i : SlotId) (f : CardRecord → CardRecord) : (s.modCard i f).hosted = s.hosted := rfl
@[simp] theorem State.modCard_nextRun (s : State) (i : SlotId) (f : CardRecord → CardRecord) : (s.modCard i f).nextRun = s.nextRun := rfl
@[simp] theorem State.modCard_ports (s : State) (i : SlotId) (f : CardRecord → CardRecord) : (s.modCard i f).ports = s.ports := rfl
@[simp] theorem State.modCard_looks (s : State) (i : SlotId) (f : CardRecord → CardRecord) : (s.modCard i f).looks = s.looks := rfl
@[simp] theorem State.modCard_working (s : State) (i : SlotId) (f : CardRecord → CardRecord) : (s.modCard i f).working = s.working := rfl
@[simp] theorem State.modCard_grade (s : State) (i : SlotId) (f : CardRecord → CardRecord) : (s.modCard i f).grade = s.grade := rfl
@[simp] theorem State.modCard_stationLog (s : State) (i : SlotId) (f : CardRecord → CardRecord) : (s.modCard i f).stationLog = s.stationLog := rfl
@[simp] theorem State.modCard_pubQ (s : State) (i : SlotId) (f : CardRecord → CardRecord) : (s.modCard i f).pubQ = s.pubQ := rfl

/-! ### modClip -/

@[simp] theorem State.modClip_pending (s : State) (i : SlotId) (n : Nat) (f : Clip → Clip) : (s.modClip i n f).pending = s.pending := rfl
@[simp] theorem State.modClip_image (s : State) (i : SlotId) (n : Nat) (f : Clip → Clip) : (s.modClip i n f).image = s.image := rfl
@[simp] theorem State.modClip_seated (s : State) (i : SlotId) (n : Nat) (f : Clip → Clip) : (s.modClip i n f).seated = s.seated := rfl
@[simp] theorem State.modClip_trunk (s : State) (i : SlotId) (n : Nat) (f : Clip → Clip) : (s.modClip i n f).trunk = s.trunk := rfl
@[simp] theorem State.modClip_line (s : State) (i : SlotId) (n : Nat) (f : Clip → Clip) : (s.modClip i n f).line = s.line := rfl
@[simp] theorem State.modClip_slots (s : State) (i : SlotId) (n : Nat) (f : Clip → Clip) : (s.modClip i n f).slots = s.slots := rfl
@[simp] theorem State.modClip_cards (s : State) (i : SlotId) (n : Nat) (f : Clip → Clip) : (s.modClip i n f).cards = s.cards.set i ((s.cards.get i).map fun c => c.modClip n f) := rfl
@[simp] theorem State.modClip_serial (s : State) (i : SlotId) (n : Nat) (f : Clip → Clip) : (s.modClip i n f).serial = s.serial := rfl
@[simp] theorem State.modClip_hosted (s : State) (i : SlotId) (n : Nat) (f : Clip → Clip) : (s.modClip i n f).hosted = s.hosted := rfl
@[simp] theorem State.modClip_nextRun (s : State) (i : SlotId) (n : Nat) (f : Clip → Clip) : (s.modClip i n f).nextRun = s.nextRun := rfl
@[simp] theorem State.modClip_ports (s : State) (i : SlotId) (n : Nat) (f : Clip → Clip) : (s.modClip i n f).ports = s.ports := rfl
@[simp] theorem State.modClip_looks (s : State) (i : SlotId) (n : Nat) (f : Clip → Clip) : (s.modClip i n f).looks = s.looks := rfl
@[simp] theorem State.modClip_working (s : State) (i : SlotId) (n : Nat) (f : Clip → Clip) : (s.modClip i n f).working = s.working := rfl
@[simp] theorem State.modClip_grade (s : State) (i : SlotId) (n : Nat) (f : Clip → Clip) : (s.modClip i n f).grade = s.grade := rfl
@[simp] theorem State.modClip_stationLog (s : State) (i : SlotId) (n : Nat) (f : Clip → Clip) : (s.modClip i n f).stationLog = s.stationLog := rfl
@[simp] theorem State.modClip_pubQ (s : State) (i : SlotId) (n : Nat) (f : Clip → Clip) : (s.modClip i n f).pubQ = s.pubQ := rfl

/-! ### modPort -/

@[simp] theorem State.modPort_pending (s : State) (p : PortId) (f : Channel → Channel) : (s.modPort p f).pending = s.pending := rfl
@[simp] theorem State.modPort_image (s : State) (p : PortId) (f : Channel → Channel) : (s.modPort p f).image = s.image := rfl
@[simp] theorem State.modPort_seated (s : State) (p : PortId) (f : Channel → Channel) : (s.modPort p f).seated = s.seated := rfl
@[simp] theorem State.modPort_trunk (s : State) (p : PortId) (f : Channel → Channel) : (s.modPort p f).trunk = s.trunk := rfl
@[simp] theorem State.modPort_line (s : State) (p : PortId) (f : Channel → Channel) : (s.modPort p f).line = s.line := rfl
@[simp] theorem State.modPort_slots (s : State) (p : PortId) (f : Channel → Channel) : (s.modPort p f).slots = s.slots := rfl
@[simp] theorem State.modPort_cards (s : State) (p : PortId) (f : Channel → Channel) : (s.modPort p f).cards = s.cards := rfl
@[simp] theorem State.modPort_serial (s : State) (p : PortId) (f : Channel → Channel) : (s.modPort p f).serial = s.serial := rfl
@[simp] theorem State.modPort_hosted (s : State) (p : PortId) (f : Channel → Channel) : (s.modPort p f).hosted = s.hosted := rfl
@[simp] theorem State.modPort_nextRun (s : State) (p : PortId) (f : Channel → Channel) : (s.modPort p f).nextRun = s.nextRun := rfl
@[simp] theorem State.modPort_ports (s : State) (p : PortId) (f : Channel → Channel) : (s.modPort p f).ports = s.ports.set p (f (s.ports.get p)) := rfl
@[simp] theorem State.modPort_looks (s : State) (p : PortId) (f : Channel → Channel) : (s.modPort p f).looks = s.looks := rfl
@[simp] theorem State.modPort_working (s : State) (p : PortId) (f : Channel → Channel) : (s.modPort p f).working = s.working := rfl
@[simp] theorem State.modPort_grade (s : State) (p : PortId) (f : Channel → Channel) : (s.modPort p f).grade = s.grade := rfl
@[simp] theorem State.modPort_stationLog (s : State) (p : PortId) (f : Channel → Channel) : (s.modPort p f).stationLog = s.stationLog := rfl
@[simp] theorem State.modPort_pubQ (s : State) (p : PortId) (f : Channel → Channel) : (s.modPort p f).pubQ = s.pubQ := rfl

/-! ### setHosted -/

@[simp] theorem State.setHosted_pending (s : State) (n : Nat) (e : Option HostedEntry) : (s.setHosted n e).pending = s.pending := rfl
@[simp] theorem State.setHosted_image (s : State) (n : Nat) (e : Option HostedEntry) : (s.setHosted n e).image = s.image := rfl
@[simp] theorem State.setHosted_seated (s : State) (n : Nat) (e : Option HostedEntry) : (s.setHosted n e).seated = s.seated := rfl
@[simp] theorem State.setHosted_trunk (s : State) (n : Nat) (e : Option HostedEntry) : (s.setHosted n e).trunk = s.trunk := rfl
@[simp] theorem State.setHosted_line (s : State) (n : Nat) (e : Option HostedEntry) : (s.setHosted n e).line = s.line := rfl
@[simp] theorem State.setHosted_slots (s : State) (n : Nat) (e : Option HostedEntry) : (s.setHosted n e).slots = s.slots := rfl
@[simp] theorem State.setHosted_cards (s : State) (n : Nat) (e : Option HostedEntry) : (s.setHosted n e).cards = s.cards := rfl
@[simp] theorem State.setHosted_serial (s : State) (n : Nat) (e : Option HostedEntry) : (s.setHosted n e).serial = s.serial := rfl
@[simp] theorem State.setHosted_hosted (s : State) (n : Nat) (e : Option HostedEntry) : (s.setHosted n e).hosted = s.hosted.set n e := rfl
@[simp] theorem State.setHosted_nextRun (s : State) (n : Nat) (e : Option HostedEntry) : (s.setHosted n e).nextRun = s.nextRun := rfl
@[simp] theorem State.setHosted_ports (s : State) (n : Nat) (e : Option HostedEntry) : (s.setHosted n e).ports = s.ports := rfl
@[simp] theorem State.setHosted_looks (s : State) (n : Nat) (e : Option HostedEntry) : (s.setHosted n e).looks = s.looks := rfl
@[simp] theorem State.setHosted_working (s : State) (n : Nat) (e : Option HostedEntry) : (s.setHosted n e).working = s.working := rfl
@[simp] theorem State.setHosted_grade (s : State) (n : Nat) (e : Option HostedEntry) : (s.setHosted n e).grade = s.grade := rfl
@[simp] theorem State.setHosted_stationLog (s : State) (n : Nat) (e : Option HostedEntry) : (s.setHosted n e).stationLog = s.stationLog := rfl
@[simp] theorem State.setHosted_pubQ (s : State) (n : Nat) (e : Option HostedEntry) : (s.setHosted n e).pubQ = s.pubQ := rfl

/-! ### Reading back -/

@[simp] theorem State.card_modCard_same (s : State) (i : SlotId) (f : CardRecord → CardRecord) :
    (s.modCard i f).card i = (s.card i).map f := by simp [State.card]

theorem State.card_modCard_ne (s : State) {i j : SlotId} (f : CardRecord → CardRecord) (h : j ≠ i) :
    (s.modCard i f).card j = s.card j := by simp [State.card, Four.get_set_ne _ _ h]

@[simp] theorem State.card_setCard_same (s : State) (i : SlotId) (c : Option CardRecord) :
    (s.setCard i c).card i = c := by simp [State.card]

theorem State.card_setCard_ne (s : State) {i j : SlotId} (c : Option CardRecord) (h : j ≠ i) :
    (s.setCard i c).card j = s.card j := by simp [State.card, Four.get_set_ne _ _ h]

@[simp] theorem State.slot_modSlot_same (s : State) (i : SlotId) (f : SlotReader → SlotReader) :
    (s.modSlot i f).slot i = f (s.slot i) := by simp [State.slot]

theorem State.slot_modSlot_ne (s : State) {i j : SlotId} (f : SlotReader → SlotReader) (h : j ≠ i) :
    (s.modSlot i f).slot j = s.slot j := by simp [State.slot, Four.get_set_ne _ _ h]

@[simp] theorem State.port_modPort_same (s : State) (p : PortId) (f : Channel → Channel) :
    (s.modPort p f).port p = f (s.port p) := by simp [State.port]

theorem State.port_modPort_ne (s : State) {p q : PortId} (f : Channel → Channel) (h : q ≠ p) :
    (s.modPort p f).port q = s.port q := by simp [State.port, Two.get_set_ne _ _ h]

@[simp] theorem State.card_modTrunk (s : State) (f : Trunk → Trunk) (i : SlotId) :
    (s.modTrunk f).card i = s.card i := rfl

@[simp] theorem State.slot_modTrunk (s : State) (f : Trunk → Trunk) (i : SlotId) :
    (s.modTrunk f).slot i = s.slot i := rfl

@[simp] theorem State.port_modTrunk (s : State) (f : Trunk → Trunk) (p : PortId) :
    (s.modTrunk f).port p = s.port p := rfl

@[simp] theorem State.card_modSlot (s : State) (i : SlotId) (f : SlotReader → SlotReader) (j : SlotId) :
    (s.modSlot i f).card j = s.card j := rfl

@[simp] theorem State.port_modSlot (s : State) (i : SlotId) (f : SlotReader → SlotReader) (p : PortId) :
    (s.modSlot i f).port p = s.port p := rfl

@[simp] theorem State.slot_modCard (s : State) (i : SlotId) (f : CardRecord → CardRecord) (j : SlotId) :
    (s.modCard i f).slot j = s.slot j := rfl

@[simp] theorem State.port_modCard (s : State) (i : SlotId) (f : CardRecord → CardRecord) (p : PortId) :
    (s.modCard i f).port p = s.port p := rfl

@[simp] theorem State.card_modPort (s : State) (p : PortId) (f : Channel → Channel) (j : SlotId) :
    (s.modPort p f).card j = s.card j := rfl

@[simp] theorem State.slot_modPort (s : State) (p : PortId) (f : Channel → Channel) (j : SlotId) :
    (s.modPort p f).slot j = s.slot j := rfl

end Sys2Proof.Machine
end

