-- ==== Sys2Proof/Laws/Channel.lean ====
section
/-! SUPPORT. What the operations of one Destination Channel do to its figures: each keeps used + reserved within the
capacity (R85 to R88). -/

namespace Sys2Proof.Machine

@[simp] theorem Channel.startService_fig (x : WorkItem) (c : Channel) : (c.startService x).fig = c.fig := by
  cases x <;> rfl

@[simp] theorem Channel.serve_fig (c : Channel) : c.serve.fig = c.fig := by
  unfold Channel.serve
  repeat' (first | rfl | simp | split)

@[simp] theorem Channel.refresh_fig (c : Channel) : c.refresh.fig = c.fig := by
  simp [Channel.refresh]

@[simp] theorem Channel.bring_fig (x : WorkItem) (c : Channel) : (c.bring x).fig = c.fig := by
  simp [Channel.bring]

@[simp] theorem Channel.bringReadback_fig (x : WorkItem) (c : Channel) : (c.bringReadback x).fig = c.fig := by
  unfold Channel.bringReadback
  split <;> simp

@[simp] theorem Channel.endService_fig (c : Channel) : c.endService.fig = c.fig := by simp [Channel.endService]

@[simp] theorem Channel.dropItems_fig (run : Nat) (k : Bool) (c : Channel) : (c.dropItems run k).fig = c.fig := by
  simp [Channel.dropItems]

@[simp] theorem Channel.dropJob_fig (run seg a : Nat) (c : Channel) : (c.dropJob run seg a).fig = c.fig := rfl

@[simp] theorem Channel.dropReadJob_fig (run seg a : Nat) (c : Channel) : (c.dropReadJob run seg a).fig = c.fig := rfl

@[simp] theorem Channel.dropOpenJob_fig (run seg a : Nat) (c : Channel) : (c.dropOpenJob run seg a).fig = c.fig := rfl

@[simp] theorem Channel.openJob_fig (run seg a n : Nat) (c : Channel) : (c.openJob run seg a n).fig = c.fig := rfl

@[simp] theorem Channel.keepCrc_fig (run seg a n j : Nat) (w : Word) (c : Channel) :
    (c.keepCrc run seg a n j w).fig = c.fig := by
  unfold Channel.keepCrc
  dsimp only
  split <;> rfl

@[simp] theorem Channel.store_fig (run b : Nat) (d : List Byte) (c : Channel) : (c.store run b d).fig = c.fig := rfl

/-- A channel with the figures of one that fits, fits. -/
theorem Channel.fits_of_fig {c d : Channel} (h : d.fig = c.fig) (hc : c.fits) : d.fits := by
  unfold Channel.fits at *
  rwa [h]

/-- A run that ends gives back no more than is reserved (R87). -/
theorem Channel.endRun_fits (run : Nat) (k : Bool) {c : Channel} (h : c.fits) : (c.endRun run k).fits := by
  have h1 : (c.dropItems run k).fits := fits_of_fig (dropItems_fig run k c) h
  unfold Channel.endRun
  dsimp only
  split
  · exact h1
  · unfold Channel.fits at *
    dsimp only
    omega

/-- A completed write moves one block from reserved to used, or none (R86). -/
theorem Channel.countWrite_fits (run b : Nat) {c : Channel} (h : c.fits) : (c.countWrite run b).fits := by
  unfold Channel.countWrite
  dsimp only
  repeat' split
  · exact h
  · exact h
  · exact h
  · rename_i hz
    unfold Channel.fits at *
    simp at hz
    dsimp only
    omega

/-- A run cleared after its last write returns what was kept for it (R92). -/
theorem Channel.clearEnded_fits (run : Nat) {c : Channel} (h : c.fits) : (c.clearEnded run).fits := by
  unfold Channel.clearEnded
  repeat' split
  · exact h
  · unfold Channel.fits at *
    dsimp only
    omega
  · exact h

/-- A grant keeps the sum within the capacity by its own test (R85). -/
theorem Channel.reserve_fits (id : Nat) (o : RunOwner) {n : Nat} {c : Channel} (hg : c.grants n = true)
    (h : c.fits) : (c.reserve id o n).fits := by
  unfold Channel.fits Channel.grants Channel.freeBlocks Channel.reserve at *
  simp at hg
  dsimp only
  omega

/-- A lost port has figures 0 (R83). -/
theorem Channel.lose_fits (st : DriveState) (c : Channel) : (c.lose st).fits := by
  simp [Channel.fits, Channel.lose, Channel.start]

/-- An attached drive's used figure is no larger than its capacity (R82). -/
theorem Channel.attach_fits (r : DriveReport) : (Channel.attach r).fits := by
  unfold Channel.fits Channel.attach
  dsimp only
  omega

/-- A port without a drive has figures 0 (R84). -/
theorem Channel.start_fits : Channel.start.fits := by simp [Channel.fits, Channel.start]

/-- Every reservation returned leaves the used figure alone (R84). -/
theorem Channel.restarted_fits {c : Channel} (h : c.fits) : c.restarted.fits := by
  unfold Channel.fits Channel.restarted at *
  dsimp only
  omega

/-- A warm restart keeps the figures or returns the reservations (R182). -/
theorem Channel.beginRestart_fits {c : Channel} (h : c.fits) : c.beginRestart.fits := by
  unfold Channel.beginRestart
  split
  · exact h
  · exact restarted_fits h

end Sys2Proof.Machine
end

