-- ==== Sys2Proof/Laws/Effect.lean ====
section
/-! SUPPORT. What the shared operations can do, said once. Each operation below the commands stands in the relation
Effect: it leaves the queue of commands, the image, the seated cards, the look table and the receiving side of the
trunk alone, and keeps every queue within its capacity and every port within its space. Provers cite the lemma of an
operation instead of unfolding it. Each lemma is a link of a chain: from Effect s t to Effect s (op t). -/

namespace Sys2Proof.Machine

/-- What a shared operation leaves unchanged and what it keeps true. -/
structure Effect (s t : State) : Prop where
  pending : t.pending = s.pending
  image : t.image = s.image
  seated : t.seated = s.seated
  looks : t.looks = s.looks
  locked : t.trunk.locked = s.trunk.locked
  syncLost : t.trunk.syncLost = s.trunk.syncLost
  presence : t.trunk.presence = s.trunk.presence
  mode : t.trunk.mode = s.trunk.mode
  recvQ : t.trunk.recvQ = s.trunk.recvQ
  deferral : t.trunk.deferral = s.trunk.deferral
  tx : t.trunk.tx = s.trunk.tx
  sendQ : s.trunk.sendQ.length ≤ 48 → t.trunk.sendQ.length ≤ 48
  pubQ : s.pubQ.length ≤ 64 → t.pubQ.length ≤ 64
  bulk : t.trunk.bulk.length ≤ s.trunk.bulk.length
  frames : s.grade.queue.length ≤ 8 → t.grade.queue.length ≤ 8
  fits : s.fits → t.fits

namespace Effect

variable {s t : State}

theorem refl (s : State) : Effect s s := by constructor <;> simp

theorem trans {u : State} (h : Effect s t) (g : Effect t u) : Effect s u where
  pending := g.pending.trans h.pending
  image := g.image.trans h.image
  seated := g.seated.trans h.seated
  looks := g.looks.trans h.looks
  locked := g.locked.trans h.locked
  syncLost := g.syncLost.trans h.syncLost
  presence := g.presence.trans h.presence
  mode := g.mode.trans h.mode
  recvQ := g.recvQ.trans h.recvQ
  deferral := g.deferral.trans h.deferral
  tx := g.tx.trans h.tx
  sendQ := fun x => g.sendQ (h.sendQ x)
  pubQ := fun x => g.pubQ (h.pubQ x)
  bulk := Nat.le_trans g.bulk h.bulk
  frames := fun x => g.frames (h.frames x)
  fits := fun x => g.fits (h.fits x)

/-- A chain over a list. -/
theorem foldl {α : Type} {f : State → α → State} {l : List α} (hf : ∀ t a, Effect t (f t a)) (h : Effect s t) :
    Effect s (l.foldl f t) := by
  induction l generalizing t with
  | nil => exact h
  | cons a l ih => exact ih (h.trans (hf t a))

/-! ### Updates -/

theorem modCard (i : SlotId) (f : CardRecord → CardRecord) (h : Effect s t) : Effect s (t.modCard i f) :=
  h.trans (by constructor <;> simp [State.fits])

theorem modClip (i : SlotId) (n : Nat) (f : Clip → Clip) (h : Effect s t) : Effect s (t.modClip i n f) :=
  h.trans (by constructor <;> simp [State.fits])

theorem setCard (i : SlotId) (c : Option CardRecord) (h : Effect s t) : Effect s (t.setCard i c) :=
  h.trans (by constructor <;> simp [State.fits])

theorem modSlot (i : SlotId) (f : SlotReader → SlotReader) (h : Effect s t) : Effect s (t.modSlot i f) :=
  h.trans (by constructor <;> simp [State.fits])

theorem setHosted (n : Nat) (e : Option HostedEntry) (h : Effect s t) : Effect s (t.setHosted n e) :=
  h.trans (by constructor <;> simp [State.fits])

theorem modPort (p : PortId) (f : Channel → Channel) (hf : (t.port p).fits → (f (t.port p)).fits)
    (h : Effect s t) : Effect s (t.modPort p f) :=
  h.trans (by
    constructor <;> simp [State.fits]
    intro h0 h1
    cases p <;> simp_all [State.port, Two.get, Two.set])

/-- A change of a channel that leaves its figures. -/
theorem modPortFig (p : PortId) (f : Channel → Channel) (hf : ∀ c, (f c).fig = c.fig) (h : Effect s t) :
    Effect s (t.modPort p f) :=
  modPort p f (Channel.fits_of_fig (hf _)) h

theorem withLine (l : List Requester) (h : Effect s t) : Effect s { t with line := l } :=
  h.trans (by constructor <;> simp [State.fits])

theorem withNextRun (n : Nat) (h : Effect s t) : Effect s { t with nextRun := n } :=
  h.trans (by constructor <;> simp [State.fits])

theorem withStationLog (l : FaultLog) (h : Effect s t) : Effect s { t with stationLog := l } :=
  h.trans (by constructor <;> simp [State.fits])

theorem withWorking (w : Four WorkingLook) (h : Effect s t) : Effect s { t with working := w } :=
  h.trans (by constructor <;> simp [State.fits])

/-- A change of the Grade Pipeline that leaves the frame queue no longer. -/
theorem withGrade (g : GradePipeline) (hg : g.queue.length ≤ t.grade.queue.length) (h : Effect s t) :
    Effect s { t with grade := g } :=
  h.trans (by constructor <;> simp [State.fits] <;> omega)

theorem modStaging (f : Trunk → List StagedBlock) (h : Effect s t) :
    Effect s (t.modTrunk fun k => { k with staging := f k }) :=
  h.trans (by constructor <;> simp [State.fits])

/-! ### The send queue, faults, publication -/

theorem handControl (k : Kind) (n : Nat) (b : List Byte) (h : Effect s t) : Effect s (handControl k n b t) := by
  refine h.trans ?_
  unfold Machine.handControl State.takesControl
  split
  · rename_i hc
    simp at hc
    constructor <;> simp [State.fits]
    omega
  · exact refl _

theorem setLog (o : Owner) (l : FaultLog) (h : Effect s t) : Effect s (t.setLog o l) := by
  unfold State.setLog
  split
  · exact withStationLog _ h
  · exact modCard _ _ h
  · exact modClip _ _ _ h

theorem setPending (o : Owner) (b : Bool) (h : Effect s t) : Effect s (t.setPending o b) := by
  unfold State.setPending
  split
  · exact h
  · exact setLog _ _ h

theorem pushPublication (k : Kind) (b : List Byte) (hq : t.pubQ.length < 64) (h : Effect s t) :
    Effect s (t.pushPublication k b) :=
  h.trans (by
    unfold State.pushPublication
    constructor <;> simp [State.fits]
    omega)

theorem publishNotice (o : Owner) (r : FaultRecord) (h : Effect s t) : Effect s (publishNotice o r t) := by
  unfold Machine.publishNotice
  split
  · split
    · exact pushPublication _ _ (by assumption) h
    · exact setPending _ _ h
  · exact h

theorem publishSummary (o : Owner) (n : Nat) (h : Effect s t) : Effect s (publishSummary o n t) := by
  unfold Machine.publishSummary
  split
  · exact h
  · split
    · split
      · exact setPending _ _ (pushPublication _ _ (by assumption) h)
      · exact setPending _ _ h
    · exact h

theorem raiseFault (o : Owner) (f : NewFault) (h : Effect s t) : Effect s (raiseFault o f t) := by
  unfold Machine.raiseFault
  dsimp only
  repeat' first
    | exact h | apply publishNotice | apply setLog | split

/-! ### Records -/

theorem removeTarget (i : SlotId) (k : TargetKey) (h : Effect s t) : Effect s (removeTarget i k t) :=
  raiseFault _ _ (modCard _ _ h)

theorem enterShort (i : SlotId) (c : CardRecord) (h : Effect s t) : Effect s (enterShort i c t) := by
  unfold Machine.enterShort
  dsimp only
  exact modCard _ _ (raiseFault _ _ (foldl (fun t k => removeTarget i k (refl t)) (modCard _ _ h)))

theorem endSettling (i : SlotId) (c : CardRecord) (h : Effect s t) : Effect s (endSettling i c t) := by
  unfold Machine.endSettling
  dsimp only
  repeat' first
    | exact h | apply enterShort | apply modCard | apply handControl | split

theorem settlingTest (i : SlotId) (h : Effect s t) : Effect s (settlingTest i t) := by
  unfold Machine.settlingTest
  repeat' first
    | exact h | apply endSettling | split

/-! ### Reads -/

theorem joinLine (r : Requester) (h : Effect s t) : Effect s (joinLine r t) := withLine _ h

theorem leaveLine (r : Requester) (h : Effect s t) : Effect s (leaveLine r t) := withLine _ h

theorem waitForRoom (r : Requester) (h : Effect s t) : Effect s (waitForRoom r t) := by
  unfold Machine.waitForRoom
  split
  · exact h
  · exact joinLine _ h

theorem noteLosers (n : Nat) (h : Effect s t) : Effect s (noteLosers n t) := by
  induction n generalizing t with
  | zero => exact h
  | succ n ih =>
    unfold Machine.noteLosers
    split
    · exact h
    · exact ih (withLine _ h)

theorem noteWaiting (h : Effect s t) : Effect s (noteWaiting t) := noteLosers _ h

theorem takeInHand (i : SlotId) (x : Hand) (h : Effect s t) : Effect s (takeInHand i x t) := by
  unfold Machine.takeInHand
  dsimp only
  repeat' first
    | exact h | apply waitForRoom | apply modSlot | split

theorem toBlock (i : SlotId) (n : Nat) (h : Effect s t) : Effect s (toBlock i n t) := by
  unfold Machine.toBlock
  dsimp only
  repeat' first
    | exact h | apply takeInHand | apply modSlot | split

theorem beginItem (i : SlotId) (x : ReadItem) (h : Effect s t) : Effect s (beginItem i x t) := by
  unfold Machine.beginItem
  repeat' first
    | exact h | apply modCard | split

theorem startItem (i : SlotId) (x : ReadItem) (h : Effect s t) : Effect s (startItem i x t) := by
  unfold Machine.startItem
  dsimp only
  split
  · exact noteWaiting (modPortFig _ _ (fun c => Channel.bringReadback_fig _ c) (toBlock _ _ (modSlot _ _ h)))
  · exact toBlock _ _ (modSlot _ _ h)

theorem dropHead (i : SlotId) (h : Effect s t) : Effect s (dropHead i t) := leaveLine _ (modSlot _ _ h)

theorem afterItem (i : SlotId) (x : ReadItem) (h : Effect s t) : Effect s (afterItem i x t) := by
  unfold Machine.afterItem
  repeat' first
    | exact h | apply settlingTest | apply modCard | split

theorem serveReads (i : SlotId) (n : Nat) (h : Effect s t) : Effect s (serveReads i n t) := by
  induction n generalizing t with
  | zero => exact h
  | succ n ih =>
    unfold Machine.serveReads
    dsimp only
    split
    · exact modSlot _ _ h
    · split
      · exact startItem _ _ (beginItem _ _ h)
      · exact ih (afterItem _ _ (dropHead _ (beginItem _ _ h)))

theorem endItem (i : SlotId) (h : Effect s t) : Effect s (endItem i t) := by
  unfold Machine.endItem
  split
  · exact h
  · exact serveReads _ _ (afterItem _ _ (dropHead _ h))

theorem stopIfDead (i : SlotId) (h : Effect s t) : Effect s (stopIfDead i t) := by
  unfold Machine.stopIfDead
  repeat' first
    | exact h | apply endItem | split

theorem requestRead (i : SlotId) (x : ReadItem) (h : Effect s t) : Effect s (requestRead i x t) := by
  unfold Machine.requestRead
  split
  · exact serveReads _ _ (modSlot _ _ h)
  · exact modSlot _ _ h
  · exact h
  · exact h

/-! ### Segments -/

theorem requestHead (i : SlotId) (h : Effect s t) : Effect s (requestHead i t) := by
  unfold Machine.requestHead
  repeat' first
    | exact h | apply requestRead | split

theorem removeEntries (i : SlotId) (p : ResendEntry → Bool) (h : Effect s t) : Effect s (removeEntries i p t) := by
  unfold Machine.removeEntries
  dsimp only
  repeat' first
    | exact h | apply requestHead | apply setCard | split

theorem cellSent (i : SlotId) (k : TargetKey) (seg a : Nat) (h : Effect s t) : Effect s (cellSent i k seg a t) := by
  unfold Machine.cellSent
  repeat' first
    | exact h | apply removeEntries | apply modCard | split

/-- A run ends at a port (R87). -/
theorem endRun (p : PortId) (run : Nat) (k : Bool) (h : Effect s t) :
    Effect s (t.modPort p (Channel.endRun run k)) :=
  modPort _ _ (fun hc => Channel.endRun_fits _ _ hc) h

theorem endTarget (i : SlotId) (k : TargetKey) (st : TargetState) (b : Bool) (h : Effect s t) :
    Effect s (endTarget i k st b t) := by
  unfold Machine.endTarget
  dsimp only
  repeat' first
    | exact h | apply settlingTest | apply stopIfDead | apply handControl | apply endRun | apply removeEntries
    | apply modCard | split

theorem failedAttempt (i : SlotId) (k : TargetKey) (d : VerifyDetail) (h : Effect s t) :
    Effect s (failedAttempt i k d t) := by
  unfold Machine.failedAttempt
  dsimp only
  repeat' first
    | exact h | apply endTarget | apply requestHead | apply setCard | apply raiseFault | split

theorem verifiedCell (i : SlotId) (k : TargetKey) (seg a : Nat) (h : Effect s t) :
    Effect s (verifiedCell i k seg a t) := by
  unfold Machine.verifiedCell
  dsimp only
  repeat' first
    | exact h | apply settlingTest | apply stopIfDead | apply endRun | apply modCard | split

theorem judgeLocal (i : SlotId) (p : PortId) (r : LocalResult) (h : Effect s t) : Effect s (judgeLocal i p r t) := by
  unfold Machine.judgeLocal
  repeat' first
    | exact h | apply verifiedCell | apply failedAttempt | split

theorem judgeReport (i : SlotId) (n : Nat) (r : Report) (h : Effect s t) : Effect s (judgeReport i n r t) := by
  unfold Machine.judgeReport
  dsimp only
  repeat' first
    | exact h | apply verifiedCell | apply failedAttempt | apply endTarget | split

theorem startReportTimers (b : StagedBlock) (h : Effect s t) : Effect s (startReportTimers b t) := by
  unfold Machine.startReportTimers
  repeat' first
    | exact h | apply modCard | split

/-! ### Rounds -/

theorem enterCopying (i : SlotId) (h : Effect s t) : Effect s (enterCopying i t) := by
  unfold Machine.enterCopying
  dsimp only
  repeat' first
    | exact h | apply requestRead | apply settlingTest | apply modCard | split

theorem openWindow (i : SlotId) (n : Nat) (h : Effect s t) : Effect s (openWindow i n t) := modCard _ _ h

theorem enterClaiming (i : SlotId) (n : Nat) (h : Effect s t) : Effect s (enterClaiming i n t) := by
  unfold Machine.enterClaiming
  dsimp only
  repeat' first
    | exact h | apply handControl | apply openWindow | apply modCard | split

theorem newRound (i : SlotId) (h : Effect s t) : Effect s (newRound i t) := by
  unfold Machine.newRound
  repeat' first
    | exact h | apply enterClaiming | apply modCard | split

theorem closeWindow (i : SlotId) (h : Effect s t) : Effect s (closeWindow i t) := by
  unfold Machine.closeWindow
  dsimp only
  repeat' first
    | exact h | apply enterCopying | apply handControl | apply modCard | split

theorem zeroWindowTest (i : SlotId) (h : Effect s t) : Effect s (zeroWindowTest i t) := by
  unfold Machine.zeroWindowTest
  repeat' first
    | exact h | apply closeWindow | split

theorem leaveIndexing (i : SlotId) (h : Effect s t) : Effect s (leaveIndexing i t) := by
  unfold Machine.leaveIndexing
  repeat' first
    | exact h | apply enterCopying | apply enterClaiming | apply modCard | split

theorem askReservation (i : SlotId) (p : PortId) (h : Effect s t) : Effect s (askReservation i p t) := by
  unfold Machine.askReservation
  split
  · exact h
  · split
    · rename_i hg
      exact withNextRun _ (modCard _ _ (modPort _ _ (fun hc => Channel.reserve_fits _ _ hg hc) h))
    · exact h

theorem requestLocal (i : SlotId) (p : PortId) (h : Effect s t) : Effect s (requestLocal i t p) := by
  unfold Machine.requestLocal
  split
  · split
    · exact modPortFig _ _ (fun _ => rfl) (modCard _ _ h)
    · exact askReservation _ _ h
  · exact h

theorem formedTest (i : SlotId) (h : Effect s t) : Effect s (formedTest i t) := by
  unfold Machine.formedTest
  split
  · exact leaveIndexing _ h
  · exact h

theorem formTargets (i : SlotId) (h : Effect s t) : Effect s (formTargets i t) :=
  formedTest _ (foldl (fun t p => requestLocal _ p (refl t)) (modCard _ _ h))

/-! ### Hosted copies -/

theorem dropBulk (g : Tag) (h : Effect s t) : Effect s (dropBulk g t) :=
  h.trans (by
    constructor <;> simp [Machine.dropBulk, State.fits]
    exact List.length_filter_le _ _)

theorem sendReport (place : Nat) (g : Tag) (o : OwedReport) (f : FormedReport) (h : Effect s t) :
    Effect s (sendReport place g o f t) :=
  handControl _ _ _ (setHosted _ _ h)

theorem queueReports (place : Nat) (h : Effect s t) : Effect s (queueReports place t) := by
  unfold Machine.queueReports
  split
  · exact h
  · refine foldl (fun t o => ?_) (setHosted _ _ h)
    split
    · exact refl t
    · exact sendReport _ _ _ _ (refl t)

theorem closeSegment (place : Nat) (h : Effect s t) : Effect s (closeSegment place t) := by
  unfold Machine.closeSegment
  dsimp only
  repeat' first
    | exact h
    | exact modPortFig _ _ (fun c => Channel.bringReadback_fig _ c) (setHosted _ _ h)
    | exact queueReports _ (modPortFig _ _ (fun c => Channel.dropOpenJob_fig _ _ _ c) (setHosted _ _ h))
    | split

theorem freeEntry (place : Nat) (k : Bool) (h : Effect s t) : Effect s (freeEntry place k t) := by
  unfold Machine.freeEntry
  split
  · exact h
  · exact dropBulk _ (setHosted _ _ (endRun _ _ _ h))

theorem freeIfDone (place : Nat) (h : Effect s t) : Effect s (freeIfDone place t) := by
  unfold Machine.freeIfDone
  repeat' first
    | exact h | apply freeEntry | split

theorem finishEntry (place : Nat) (st : HostedState) (h : Effect s t) : Effect s (finishEntry place st t) := by
  unfold Machine.finishEntry
  split
  · exact h
  · exact freeIfDone _ (dropBulk _ (modPortFig _ _ (fun c => Channel.dropItems_fig _ _ c) (setHosted _ _ h)))

theorem orphanEntry (place : Nat) (h : Effect s t) : Effect s (orphanEntry place t) := by
  unfold Machine.orphanEntry
  split
  · exact h
  · exact raiseFault _ _ (dropBulk _ (modPortFig _ _ (fun c => Channel.dropItems_fig _ _ c) (setHosted _ _ h)))

theorem settleLostSource (n place : Nat) (h : Effect s t) : Effect s (settleLostSource n place t) := by
  unfold Machine.settleLostSource
  repeat' first
    | exact h | apply freeEntry | apply orphanEntry | split

theorem answerClaim (p : PortId) (a : Announce) (h : Effect s t) : Effect s (answerClaim p a t) := by
  unfold Machine.answerClaim
  split
  · dsimp only
    split
    · rename_i hg
      exact handControl _ _ _ (withNextRun _ (setHosted _ _
        (modPort _ _ (fun hc => Channel.reserve_fits _ _ hg hc) h)))
    · exact h
  · exact h

theorem endStaleRun (g : Tag) (h : Effect s t) : Effect s (endStaleRun g t) := by
  unfold Machine.endStaleRun
  repeat' first
    | exact h | apply raiseFault | apply freeEntry | split

theorem considerClaim (a : AnnounceBody) (h : Effect s t) : Effect s (considerClaim a t) := by
  unfold Machine.considerClaim
  dsimp only
  repeat' first
    | exact h | apply answerClaim | exact modPortFig _ _ (fun _ => rfl) h | split

theorem writeBlock (place : Nat) (b : BulkBlock) (h : Effect s t) : Effect s (writeBlock place b t) := by
  unfold Machine.writeBlock
  dsimp only
  repeat' first
    | exact h | apply closeSegment | apply setHosted
    | (apply modPortFig; · intro c; simp)
    | split

theorem openSegment (place : Nat) (e : HostedEntry) (seg a : Nat) (n : Option Nat) (h : Effect s t) :
    Effect s (openSegment place e seg a n t) :=
  modPortFig _ _ (fun _ => rfl) (setHosted _ _ h)

theorem placeBlock (place : Nat) (e : HostedEntry) (b : BulkBlock) (h : Effect s t) :
    Effect s (placeBlock place e b t) := by
  unfold Machine.placeBlock
  dsimp only
  repeat' first
    | exact h | apply noteWaiting | apply writeBlock | apply openSegment | exact closeSegment _ h
    | (apply modPortFig; · intro c; simp)
    | split

theorem settleLostPort (place : Nat) (h : Effect s t) : Effect s (settleLostPort place t) := by
  unfold Machine.settleLostPort
  dsimp only
  split
  · exact h
  · apply dropBulk
    apply setHosted
    split
    · exact queueReports _ (setHosted _ _ h)
    · exact h

end Effect

end Sys2Proof.Machine
end

