-- ==== Sys2Proof/Laws/EffectMore.lean ====
section
/-! SUPPORT. The relation Effect for the operations above the shared ones: proxies, ports, the Fault Monitor, grading, the
slots, peer copies. Where an operation changes something that Effect holds fixed, its lemma says what it starts from. -/

namespace Sys2Proof.Machine

namespace Effect

variable {s t : State}

/-! ### Proxies -/

theorem raiseProxyFull (g : Tag) (n d : Nat) (h : Effect s t) : Effect s (raiseProxyFull g n d t) := by
  unfold Machine.raiseProxyFull
  repeat' first
    | exact h | apply raiseFault | split

theorem enterProxy (i : SlotId) (p : PortId) (f : ProxyFrame) (h : Effect s t) : Effect s (enterProxy i p f t) := by
  unfold Machine.enterProxy
  dsimp only
  split
  · exact noteWaiting (modPortFig _ _ (fun c => Channel.bring_fig _ c) h)
  · exact noteWaiting (withGrade _ (by simp) (modPortFig _ _ (fun c => Channel.bring_fig _ c) h))

theorem setOutbox (i : SlotId) (o : Outbox) (h : Effect s t) : Effect s (t.setOutbox i o) :=
  withGrade _ (Nat.le_refl _) h

theorem putInOutbox (i : SlotId) (p : PortId) (f : ProxyFrame) (h : Effect s t) :
    Effect s (putInOutbox i p f t) := by
  unfold Machine.putInOutbox
  dsimp only
  repeat' first
    | exact h | apply raiseProxyFull | apply joinLine | apply setOutbox | split

theorem offerProxy (i : SlotId) (f : ProxyFrame) (h : Effect s t) : Effect s (offerProxy i f t) := by
  unfold Machine.offerProxy
  repeat' first
    | exact h | apply putInOutbox | apply enterProxy | split

theorem produceHeld (i : SlotId) (g : Tag) (n : Nat) (c u : Word) (h : Effect s t) :
    Effect s (produceHeld i g n c u t) := by
  unfold Machine.produceHeld
  repeat' first
    | exact h | apply offerProxy | split

theorem produceGraded (e : FrameEntry) (b : List Byte) (h : Effect s t) : Effect s (produceGraded e b t) := by
  unfold Machine.produceGraded
  repeat' first
    | exact h | apply offerProxy | split

theorem popOutbox (i : SlotId) (h : Effect s t) : Effect s (popOutbox i t) := leaveLine _ (setOutbox _ _ h)

theorem offerHead (i : SlotId) (h : Effect s t) : Effect s (offerHead i t) := by
  unfold Machine.offerHead
  dsimp only
  repeat' first
    | exact h | apply waitForRoom | apply setOutbox | split

theorem dropOutboxHeads (p : PortId) (h : Effect s t) : Effect s (dropOutboxHeads p t) := by
  unfold Machine.dropOutboxHeads
  refine foldl (fun t i => ?_) h
  split
  · exact offerHead _ (popOutbox _ (refl t))
  · exact refl t

/-! ### Ports -/

theorem answerRequest (p : PortId) (r : ReservationRequest) (h : Effect s t) : Effect s (answerRequest p t r) := by
  unfold Machine.answerRequest
  repeat' first
    | exact h | apply formedTest | apply modCard | apply askReservation | apply answerClaim | split

theorem finishRestart (p : PortId) (h : Effect s t) : Effect s (finishRestart p t) :=
  foldl (fun t r => answerRequest p r (refl t)) (modPort _ _ (fun hc => Channel.restarted_fits hc) h)

theorem failLocal (p : PortId) (i : SlotId) (h : Effect s t) : Effect s (failLocal p t i) :=
  endTarget _ _ _ _ h

theorem settleHostedOn (p : PortId) (n : Nat) (h : Effect s t) : Effect s (settleHostedOn p t n) := by
  unfold Machine.settleHostedOn
  repeat' first
    | exact h | apply settleLostPort | split

theorem losePort (p : PortId) (st : DriveState) (h : Effect s t) : Effect s (losePort p st t) := by
  unfold Machine.losePort
  dsimp only
  have h1 := modPort p (Channel.lose st) (fun _ => Channel.lose_fits _ _) h
  have h2 := foldl (l := SlotId.inOrder) (fun t i => failLocal p i (refl t)) h1
  have h3 := foldl (l := List.range 8) (fun u n => settleHostedOn p n (refl u)) h2
  split
  · exact finishRestart _ (dropOutboxHeads _ h3)
  · exact dropOutboxHeads _ h3

theorem freeFinished (run : Nat) (h : Effect s t) : Effect s (freeFinished run t) := by
  unfold Machine.freeFinished
  repeat' first
    | exact h | apply freeIfDone | split

theorem handLocalResult (p : PortId) (o : RunOwner) (r : LocalResult) (h : Effect s t) :
    Effect s (handLocalResult p o r t) := by
  unfold Machine.handLocalResult
  repeat' first
    | exact h | apply judgeLocal | split

theorem handHostedResult (run seg a : Nat) (x : Option Nat) (w : Word) (h : Effect s t) :
    Effect s (handHostedResult run seg a x w t) := by
  unfold Machine.handHostedResult
  repeat' first
    | exact h | apply queueReports | apply setHosted | split

/-! ### Fault Monitor -/

theorem raiseClip (i : SlotId) (n : Nat) (k : FaultKind) (x : Nat) (d : Word) (h : Effect s t) :
    Effect s (raiseClip i n k x d t) := raiseFault _ _ h

theorem timingTest (i : SlotId) (n x : Nat) (c : Clip) (k : Cadence) (a b : Word) (h : Effect s t) :
    Effect s (timingTest i n x c k a b t) := by
  unfold Machine.timingTest
  dsimp only
  repeat' first
    | exact h | apply raiseClip | split

theorem cadenceCheck (i : SlotId) (n x : Nat) (a b : Word) (h : Effect s t) :
    Effect s (cadenceCheck i n x a b t) := by
  unfold Machine.cadenceCheck
  dsimp only
  repeat' first
    | exact h | apply modClip | apply timingTest | apply raiseClip | split

theorem completionTest (i : SlotId) (n : Nat) (h : Effect s t) : Effect s (completionTest i n t) := by
  unfold Machine.completionTest
  dsimp only
  repeat' first
    | exact h | apply publishSummary | apply modClip | split

theorem handClipEnd (i : SlotId) (n : Nat) (h : Effect s t) : Effect s (handClipEnd i n t) :=
  completionTest _ _ (modClip _ _ _ h)

theorem exposureCheck (i : SlotId) (n x : Nat) (ps : List Pixel) (h : Effect s t) :
    Effect s (exposureCheck i n x ps t) := by
  unfold Machine.exposureCheck
  dsimp only
  repeat' first
    | exact h | apply raiseClip | split

theorem blackCheck (i : SlotId) (n x : Nat) (ps : List Pixel) (h : Effect s t) :
    Effect s (blackCheck i n x ps t) := by
  unfold Machine.blackCheck
  repeat' first
    | exact h | apply raiseClip | split

theorem frozenCheck (i : SlotId) (n x : Nat) (d : Word) (h : Effect s t) : Effect s (frozenCheck i n x d t) := by
  unfold Machine.frozenCheck
  dsimp only
  repeat' first
    | exact h | apply modClip | apply raiseClip | split

theorem lookClipCheck (i : SlotId) (n x c : Nat) (h : Effect s t) : Effect s (lookClipCheck i n x c t) := by
  unfold Machine.lookClipCheck
  repeat' first
    | exact h | apply raiseClip | split

theorem checkFrame (g : Tag) (n : Nat) (b : List Byte) (x : Nat) (h : Effect s t) :
    Effect s (checkFrame g n b x t) := by
  unfold Machine.checkFrame
  split
  · exact h
  · split
    · exact h
    · extract_lets position ps u0 u1 u2 u3 u4
      have h0 : Effect s u0 := modClip _ _ _ h
      have h1 : Effect s u1 := exposureCheck _ _ _ _ h0
      have h2 : Effect s u2 := blackCheck _ _ _ _ h1
      have h3 : Effect s u3 := frozenCheck _ _ _ _ h2
      have h4 : Effect s u4 := lookClipCheck _ _ _ _ h3
      exact completionTest _ _ (modClip _ _ _ h4)

/-- A frame going into the frame queue finds room there. -/
theorem reserveFrame (e : FrameEntry) (hq : t.grade.queue.length < 8) (h : Effect s t) :
    Effect s { t with grade := { t.grade with queue := t.grade.queue ++ [e] } } :=
  h.trans (by constructor <;> simp [State.fits] <;> omega)

theorem raiseFault_grade (o : Owner) (f : NewFault) (u : State) : (Machine.raiseFault o f u).grade = u.grade := by
  unfold Machine.raiseFault Machine.publishNotice State.setPending State.pushPublication State.setLog
  dsimp only
  repeat' first
    | rfl | split

theorem cadenceCheck_grade (i : SlotId) (n x : Nat) (a b : Word) (u : State) :
    (Machine.cadenceCheck i n x a b u).grade = u.grade := by
  unfold Machine.cadenceCheck Machine.timingTest Machine.raiseClip
  dsimp only
  repeat' first
    | rfl | (simp only [State.modClip_grade, raiseFault_grade]; done) | split

theorem takeHeader (i : SlotId) (g : Tag) (n : Nat) (a b : Word) (h : Effect s t) :
    Effect s (takeHeader i g n a b t) := by
  unfold Machine.takeHeader
  dsimp only
  split
  · exact h
  · split
    · rename_i hq
      simp at hq
      refine reserveFrame _ ?_ (cadenceCheck _ _ _ _ _ (modClip _ _ _ h))
      rw [cadenceCheck_grade]
      simpa using hq
    · exact produceHeld _ _ _ _ _ (completionTest _ _ (cadenceCheck _ _ _ _ _ (modClip _ _ _ h)))

theorem releaseFilling (i : SlotId) (h : Effect s t) : Effect s (releaseFilling i t) := by
  unfold Machine.releaseFilling
  dsimp only
  split
  · exact h
  · exact produceHeld _ _ _ _ _ (completionTest _ _ (modClip _ _ _
      (withGrade _ (List.length_filter_le _ _) h)))

/-! ### Looks and grading -/

theorem loadWorking (i : SlotId) (v : LookValues) (o : Tag × Nat) (h : Effect s t) :
    Effect s (t.loadWorking i v o) := withWorking _ h

theorem latchClip (a i : SlotId) (g : Tag) (n : Nat) (c : Clip) (h : Effect s t) :
    Effect s (latchClip a i g n c t) := by
  unfold Machine.latchClip
  dsimp only
  repeat' first
    | exact h | apply raiseFault | apply modClip | apply loadWorking | split

theorem settleLook {e : FrameEntry} {u : State} (hs : settleLook e t = .supplied u) (h : Effect s t) :
    Effect s u := by
  unfold Machine.settleLook at hs
  repeat' split at hs
  all_goals first
    | contradiction
    | (injection hs with hs; subst hs; first | exact latchClip _ _ _ _ _ h | exact h | exact loadWorking _ _ _ h)

theorem replaceComplete_length (f : FrameEntry → Option FrameEntry) (l : List FrameEntry) :
    (replaceComplete f l).length ≤ l.length := by
  induction l with
  | nil => exact Nat.le_refl _
  | cons e es ih =>
    unfold replaceComplete
    split
    · cases f e <;> simp
    · simpa using ih

theorem replaceTaken (f : FrameEntry → Option FrameEntry) (h : Effect s t) : Effect s (t.replaceTaken f) :=
  withGrade _ (replaceComplete_length f _) h

theorem skipTaken (e : FrameEntry) (h : Effect s t) : Effect s (skipTaken e t) := by
  unfold Machine.skipTaken
  dsimp only
  repeat' first
    | exact h | apply completionTest | apply produceHeld | apply modClip | apply replaceTaken | split

/-! ### Slots -/

theorem endLocalRuns (i : SlotId) (h : Effect s t) : Effect s (endLocalRuns i t) := by
  unfold Machine.endLocalRuns
  split
  · exact h
  · refine foldl (fun t x => ?_) h
    split
    · exact endRun _ _ _ (refl t)
    · exact refl t

theorem withSerial (n : Half) (h : Effect s t) : Effect s { t with serial := n } :=
  h.trans (by constructor <;> simp [State.fits])

theorem mountCard (i : SlotId) (n : Nat) (h : Effect s t) : Effect s (mountCard i n t) :=
  setCard _ _ (modSlot _ _ (withSerial _ (endLocalRuns _ h)))

theorem writeIndex (i : SlotId) (r : List Byte) (b : Nat) (cs : List Clip) (x y : Bool) (h : Effect s t) :
    Effect s (writeIndex i r b cs x y t) := by
  unfold Machine.writeIndex
  exact modSlot _ _ (modCard _ _ h)

theorem takeIndex (i : SlotId) (d : Option (List Byte)) (h : Effect s t) : Effect s (takeIndex i d t) := by
  unfold Machine.takeIndex
  dsimp only
  repeat' first
    | exact h | apply formTargets | apply raiseFault | apply writeIndex | split

theorem sourceError (i : SlotId) (b : Nat) (h : Effect s t) : Effect s (sourceError i b t) := by
  unfold Machine.sourceError
  dsimp only
  repeat' first
    | exact h | apply modSlot | apply raiseFault | apply modCard | split

theorem passUnit (i : SlotId) (u : OpenUnit) (x : Hand) (h : Effect s t) : Effect s (passUnit i u x t) := by
  unfold Machine.passUnit
  dsimp only
  split
  · exact modSlot _ _ (withGrade _ (by simp) h)
  · exact modSlot _ _ h

theorem parseHeader (i : SlotId) (n : Nat) (k : Clip) (c : CardRecord) (x : Hand) (h : Effect s t) :
    Effect s (parseHeader i n k c x t) := by
  unfold Machine.parseHeader
  dsimp only
  repeat' first
    | exact h | apply passUnit | apply takeHeader | apply raiseFault | apply modSlot | split

theorem handClipEnds (i : SlotId) (b : Nat) (h : Effect s t) : Effect s (handClipEnds i b t) := by
  unfold Machine.handClipEnds
  dsimp only
  split
  · exact h
  · exact foldl (fun t n => handClipEnd i n (refl t)) h

theorem parseBlock (i : SlotId) (x : Hand) (h : Effect s t) : Effect s (parseBlock i x t) := by
  unfold Machine.parseBlock
  dsimp only
  repeat' first
    | exact h | apply handClipEnds | apply passUnit | apply parseHeader | split

theorem enterFold (i : SlotId) (n : Nat) (w : Word) (h : Effect s t) : Effect s (enterFold i n w t) := modCard _ _ h

theorem deliverWrite (i : SlotId) (x : Hand) (a : Nat) (p : PortId) (h : Effect s t) :
    Effect s (deliverWrite i x a t p) := by
  unfold Machine.deliverWrite
  dsimp only
  split
  · exact h
  · apply modPortFig _ _ _ h
    intro c
    simp

theorem bringLocalReadback (i : SlotId) (n a : Nat) (p : PortId) (h : Effect s t) :
    Effect s (bringLocalReadback i n a t p) := by
  unfold Machine.bringLocalReadback
  split
  · exact h
  · split
    · exact requestRead _ _ h
    · exact modPortFig _ _ (fun c => Channel.bringReadback_fig _ c) h

theorem stageBlock (i : SlotId) (x : ReadItem) (c : CardRecord) (d : Hand) (h : Effect s t) :
    Effect s (stageBlock i x c d t) := by
  unfold Machine.stageBlock
  dsimp only
  split
  · exact startReportTimers _ h
  · exact modStaging _ h

/-- A step that is made or not. -/
theorem ite {c : Prop} [Decidable c] {u v : State} (hu : Effect s u) (hv : Effect s v) :
    Effect s (if c then u else v) := by
  split <;> assumption

theorem deliverBlock (i : SlotId) (x : ReadItem) (p : ReadProgress) (c : CardRecord) (d : Hand) (h : Effect s t) :
    Effect s (deliverBlock i x p c d t) := by
  unfold Machine.deliverBlock
  extract_lets seg ports peers last fold u0 u1 u2 u3 u4 u5 u6 u7 u8
  have h0 : Effect s u0 := leaveLine _ h
  have h1 : Effect s u1 := modSlot _ _ h0
  have h2 : Effect s u2 := ite (foldl (fun t k => cellSent i k seg x.attempt (refl t)) h1) h1
  have h3 : Effect s u3 := ite (enterFold _ _ _ h2) h2
  have h4 : Effect s u4 := foldl (fun t q => deliverWrite i d x.attempt q (refl t)) h3
  have h5 : Effect s u5 := ite h4 (stageBlock _ _ _ _ h4)
  have h6 : Effect s u6 := ite (foldl (fun t q => bringLocalReadback i seg x.attempt q (refl t)) h5) h5
  have h7 : Effect s u7 := noteWaiting h6
  have h8 : Effect s u8 := ite (parseBlock _ _ h7) h7
  exact ite (toBlock _ _ h8) (endItem _ h8)

theorem bringSettle (i : SlotId) (x : ReadItem) (c : CardRecord) (h : Effect s t) :
    Effect s (bringSettle i x c t) := by
  unfold Machine.bringSettle
  split
  · split
    · exact h
    · split
      · exact modSlot _ _ (modPortFig _ _ (fun c => Channel.bring_fig _ c) h)
      · exact h
  · exact h

theorem abandonRecord (i : SlotId) (c : CardRecord) (h : Effect s t) : Effect s (abandonRecord i c t) := by
  unfold Machine.abandonRecord
  dsimp only
  repeat' first
    | exact h | apply modCard | apply endLocalRuns | apply handControl | apply raiseFault | split

theorem settleRemoval (i : SlotId) (h : Effect s t) : Effect s (settleRemoval i t) := by
  unfold Machine.settleRemoval
  repeat' first
    | exact h | apply abandonRecord | apply setCard | apply endLocalRuns | split

theorem freeStaging (i : SlotId) (h : Effect s t) : Effect s (t.modTrunk (Machine.freeStaging i)) :=
  h.trans (by
    unfold Machine.freeStaging
    constructor <;> simp [State.fits] <;> split <;> simp)

theorem dropRequest (i : SlotId) (h : Effect s t) : Effect s (dropRequest i t) :=
  foldl (fun t _ => modPortFig _ _ (fun _ => rfl) (refl t)) h

/-! ### The trunk, peer copies, orphans -/

theorem sweepOwner (o : Owner) (h : Effect s t) : Effect s (sweepOwner t o) := by
  unfold Machine.sweepOwner
  repeat' first
    | exact h | apply publishSummary | split

theorem announceSent (b : List Byte) (h : Effect s t) : Effect s (announceSent b t) := by
  unfold Machine.announceSent
  repeat' first
    | exact h | apply openWindow | split

theorem silenceRecord (i : SlotId) (h : Effect s t) : Effect s (silenceRecord t i) := by
  unfold Machine.silenceRecord
  repeat' first
    | exact h | apply enterCopying | apply modCard | split

theorem dropLostTarget (n : Nat) (i : SlotId) (h : Effect s t) : Effect s (dropLostTarget n t i) := by
  unfold Machine.dropLostTarget
  repeat' first
    | exact h | apply endTarget | split

theorem strikeClaim (n : Nat) (i : SlotId) (h : Effect s t) : Effect s (strikeClaim n t i) := by
  unfold Machine.strikeClaim
  repeat' first
    | exact h | apply zeroWindowTest | apply modCard | split

theorem stationLost (n : Nat) (h : Effect s t) : Effect s (stationLost n t) :=
  foldl (fun t i => strikeClaim n i (refl t))
    (foldl (fun t p => settleLostSource n p (refl t)) (foldl (fun t i => dropLostTarget n i (refl t)) h))

theorem releaseWaiting (i : SlotId) (h : Effect s t) : Effect s (releaseWaiting t i) := by
  unfold Machine.releaseWaiting
  dsimp only
  repeat' first
    | exact h | apply enterCopying | apply enterClaiming | apply modCard | split

theorem refuse (m : Message) (r : RefusalReason) (h : Effect s t) : Effect s (refuse m r t) := by
  unfold Machine.refuse
  repeat' first
    | exact h | apply handControl | split

theorem takeAnnounce (m : Message) (h : Effect s t) : Effect s (takeAnnounce m t) := by
  unfold Machine.takeAnnounce
  repeat' first
    | exact h | apply considerClaim | apply endStaleRun | split

theorem takeClaim (m : Message) (h : Effect s t) : Effect s (takeClaim m t) := by
  unfold Machine.takeClaim
  repeat' first
    | exact h | apply zeroWindowTest | apply modCard | split

theorem takeClaimReply (m : Message) (h : Effect s t) : Effect s (takeClaimReply m t) := by
  unfold Machine.takeClaimReply
  repeat' first
    | exact h | apply setHosted | apply freeEntry | split

theorem endHosted (g : Tag) (st : HostedState) (h : Effect s t) : Effect s (endHosted g st t) := by
  unfold Machine.endHosted
  repeat' first
    | exact h | apply freeEntry | apply finishEntry | split

theorem takeRunEnd (m : Message) (h : Effect s t) : Effect s (takeRunEnd m t) := by
  unfold Machine.takeRunEnd
  repeat' first
    | exact h | apply endHosted | split

theorem takeRunCancel (m : Message) (h : Effect s t) : Effect s (takeRunCancel m t) := by
  unfold Machine.takeRunCancel
  repeat' first
    | exact h | apply endHosted | split

theorem takeReport (m : Message) (h : Effect s t) : Effect s (takeReport m t) := by
  unfold Machine.takeReport
  repeat' first
    | exact h | apply judgeReport | split

theorem takeAssignment (m : Message) (h : Effect s t) : Effect s (takeAssignment m t) := by
  unfold Machine.takeAssignment
  dsimp only
  repeat' first
    | exact h | apply refuse | apply modCard | split

theorem freeOrphan (n : Nat) (h : Effect s t) : Effect s (freeOrphan t n) := by
  unfold Machine.freeOrphan
  repeat' first
    | exact h | apply freeEntry | split

theorem mountSeated (h : Effect s t) : Effect s (mountSeated t) := by
  unfold Machine.mountSeated
  refine foldl (fun t i => ?_) h
  split
  · exact refl t
  · exact mountCard _ _ (refl t)

end Effect

end Sys2Proof.Machine
end

