-- ==== Sys2Proof/Laws/Envelope.lean ====
section
/-! SUPPORT. What the receiver reads of bytes that end in their own frame check (R1, R3). -/

namespace Sys2Proof.Machine

/-- A byte inside the first part of a string is that part's. -/
theorem byteAt_append_left {a b : List Byte} {i : Nat} (h : i < a.length) : byteAt (a ++ b) i = byteAt a i := by
  simp [byteAt, List.getD_eq_getElem?_getD, List.getElem?_append_left h]

/-- A byte beyond the first part of a string is the second part's. -/
theorem byteAt_append_right (a b : List Byte) (i : Nat) : byteAt (a ++ b) (a.length + i) = byteAt b i := by
  simp [byteAt, List.getD_eq_getElem?_getD, List.getElem?_append_right (Nat.le_add_right _ _)]

/-- The number of a byte is its value modulo 256. -/
theorem byteOf_toNat (n : Nat) : (byteOf n).toNat = n % 256 := by simp [byteOf]

/-- A four-byte field reads back as it was written. -/
theorem wordAt_leWord (a : List Byte) (w : Word) : wordAt (a ++ leWord w) a.length = w.toNat := by
  have h0 := byteAt_append_right a (leWord w) 0
  have h1 := byteAt_append_right a (leWord w) 1
  have h2 := byteAt_append_right a (leWord w) 2
  have h3 := byteAt_append_right a (leWord w) 3
  have e0 : byteAt (leWord w) 0 = w.toNat % 256 := byteOf_toNat _
  have e1 : byteAt (leWord w) 1 = w.toNat / 256 % 256 := byteOf_toNat _
  have e2 : byteAt (leWord w) 2 = w.toNat / 65536 % 256 := byteOf_toNat _
  have e3 : byteAt (leWord w) 3 = w.toNat / 16777216 % 256 := byteOf_toNat _
  have hw := w.isLt
  simp only [wordAt, halfAt, Nat.add_zero, Nat.add_assoc] at *
  rw [h0, h1, h2, h3, e0, e1, e2, e3]
  omega

/-- A front of envelope and body, followed by its frame check, is a good message when its figures are in range: the
receiver reads its arbitration word, kind, stations and body. -/
theorem goodMessage_checked (front : List Byte) (k : Kind) (words : Nat)
    (size : front.length = 6 + 4 * words) (announced : halfAt front 4 = words) (most : words ≤ 16400)
    (kind : Kind.ofCode (front.getD 1 0) = some k) (least : 1 ≤ byteAt front 2) (source : byteAt front 2 ≤ 31)
    (target : byteAt front 3 ≤ 31) (arb : byteAt front 0 = arbitrationWord k.cls (byteAt front 2)) :
    goodMessage (front ++ leWord (crc front))
      = some (byteAt front 0, ⟨front.getD 1 0, byteAt front 2, byteAt front 3, front.drop 6⟩) := by
  have len : (leWord (crc front)).length = 4 := rfl
  have b : ∀ i, i < 6 → byteAt (front ++ leWord (crc front)) i = byteAt front i :=
    fun i hi => byteAt_append_left (by omega)
  have g : (front ++ leWord (crc front)).getD 1 0 = front.getD 1 0 := by
    simp [List.getD_eq_getElem?_getD, List.getElem?_append_left (show 1 < front.length by omega)]
  have hh : halfAt (front ++ leWord (crc front)) 4 = words := by
    rw [← announced]; simp only [halfAt]; rw [b 4 (by omega), b 5 (by omega)]
  have take : (front ++ leWord (crc front)).take (6 + 4 * words) = front := by rw [← size]; simp
  have word : wordAt (front ++ leWord (crc front)) (6 + 4 * words) = (crc front).toNat := by
    rw [← size]; exact wordAt_leWord front _
  have body : slice (front ++ leWord (crc front)) 6 (4 * words) = front.drop 6 := by
    simp only [slice]
    rw [List.drop_append_of_le_length (by omega), List.take_append_of_le_length (by simp; omega)]
    exact List.take_of_length_le (by simp; omega)
  simp only [goodMessage, hh, take, word, body, g, b 0 (by omega), b 2 (by omega), b 3 (by omega), kind, arb,
    List.length_append, len, size]
  simp [most, least, source, target]
  omega

end Sys2Proof.Machine
end

