-- ==== Sys2Proof/Laws/Safety.lean ====
section
/-! SUPPORT. The properties of Safety.lean at the start values. -/

namespace Sys2Proof.Machine

/-- An empty slot without a record is sound. -/
theorem courseSound_start : CourseSound .start none := by
  constructor
  case seatedSlot => exact fun h => (h rfl).elim
  case idle => exact fun _ => ⟨rfl, rfl⟩
  case reading => exact fun h => nomatch h
  all_goals
    intros
    contradiction

/-- An empty fault list is sound at its level. -/
theorem faultLog_empty_sound (level : Level) (kinds : Nat) : (FaultLog.empty kinds).sound level kinds := by
  refine ⟨by simp [FaultLog.empty], by simp [FaultLog.empty], by simp [FaultLog.empty], ?_, by simp [FaultLog.empty]⟩
  simp only [FaultLog.empty, List.mem_replicate]
  rintro n ⟨_, rfl⟩
  exact Nat.zero_le _

/-- A new column of the segment table asks nothing of its target's state (R102). -/
theorem newColumn_underway (x : Target) (segments : Nat) (h : x.cells = newColumn segments) :
    ∀ cell ∈ x.cells, (cell.state = .sent ∨ cell.state = .mismatch ∨ cell.state = .resendListed) → x.state = .writing := by
  rw [h]
  intro cell m
  cases (List.mem_replicate.1 m).2
  rintro (h | h | h) <;> cases h

end Sys2Proof.Machine
end

