-- ==== Sys2Proof/WellFormed.lean ====
section
/-! DEFINITION. Which operands an event can carry: the ranges the manual gives them. The meanings are total
on every operand; this says which ones the surroundings can supply. -/

namespace Sys2Proof

/-- A drive reports a capacity of 0 to FFFFFFFFh blocks (05, destination record table). -/
def DriveReport.wellFormed (r : DriveReport) : Bool :=
  r.capacity ≤ 0xFFFFFFFF && r.used ≤ 0xFFFFFFFF

/-- No drive, or one whose report is well formed. -/
def wellFormedDrive : Option DriveReport → Bool
  | none => true
  | some r => r.wellFormed

/-- A block operand is at most 65,536 bytes; it is read with zeros beyond its end (log 5). -/
def wellFormedBlock (b : List Byte) : Bool := b.length ≤ 65536

/-- The operands of a command lie in the ranges the manual gives. -/
def Instr.wellFormed : Instr → Bool
  | .startReset drives _ => wellFormedDrive drives.dc0 && wellFormedDrive drives.dc1
  | .configurationLoadEnd memory => memory.length == 32
  | .receiverLockLost => true
  | .receiverLockGained => true
  | .messageReceived _ bytes => bytes.length ≤ 65610
  | .trunkIdleContend _ => true
  | .collision => true
  | .messageSent => true
  | .class3DeferralIdleExpiry => true
  | .presenceIntervalExpiry => true
  | .presenceTimeout station => 1 ≤ station && station ≤ 31
  | .listenTimeExpiry => true
  | .lampBlinkToggle _ => true
  | .cardInsert _ _ => true
  | .cardRemoval _ => true
  | .blockReadTryEnd _ none => true
  | .blockReadTryEnd _ (some data) => wellFormedBlock data
  | .blockDeliver _ => true
  | .hostedBlockHandover _ => true
  | .segmentIdleTimerExpiry place => place < 8
  | .reservationTimerExpiry place => place < 8
  | .claimWindowExpiry _ => true
  | .retryIntervalExpiry _ => true
  | .reportTimerExpiry _ segment station => segment < 65536 && 1 ≤ station && station ≤ 31
  | .driveAttach _ report => report.wellFormed
  | .driveDetach _ => true
  | .driveError _ => true
  | .blockWriteDone _ => true
  | .digestReadbackDone _ blocks => 1 ≤ blocks.length && blocks.length ≤ 256 && blocks.all wellFormedBlock
  | .fullComparePair _ drive => wellFormedBlock drive
  | .settleWaitDone _ => true
  | .proxyFrameService _ => true
  | .proxyOutboxEnter _ => true
  | .gradeTake => true
  | .gradeComplete => true
  | .cardAnnounce => true
  | .claim => true
  | .claimReply => true
  | .runEnd => true
  | .runCancel => true
  | .segmentReport => true
  | .lookPublish => true
  | .lookAssign => true
  | .replyKindRemoved => true
  | .unknownKindRequest => true
  | .cardQuery => true
  | .clipQuery => true
  | .stationQuery => true
  | .hold => true
  | .forceRelease => true
  | .retryCopy => true
  | .monitorSelect => true
  | .clearOrphans => true
  | .clearAbandoned => true
  | .restart => true

end Sys2Proof
end

