-- ==== Sys2Proof/Tests/Slice0.lean ====
section
/-! SUPPORT. Tests: terms that the well-formedness check refuses, worked values of the manual, and for every statement that
has hypotheses a state and operands that meet them, clause by clause. -/

namespace Sys2Proof.Tests
open Sys2Proof Sys2Proof.Machine

/-! ## Well-formedness -/

theorem test_wf_startReset :
    (Instr.startReset ⟨some ⟨.flash, 0x100000000, 0⟩, none⟩ (.all none)).wellFormed = false
      ∧ (Instr.startReset ⟨none, some ⟨.flash, 0, 0x100000000⟩⟩ (.all none)).wellFormed = false
      ∧ (Instr.startReset ⟨some ⟨.flash, 5, 0⟩, none⟩ (.all none)).wellFormed = true := by decide
theorem test_wf_load : (Instr.configurationLoadEnd (List.replicate 31 none)).wellFormed = false
    ∧ (Instr.configurationLoadEnd (List.replicate 32 none)).wellFormed = true := by decide
theorem test_wf_received (bytes : List Byte) (h : bytes.length = 65611) :
    (Instr.messageReceived false bytes).wellFormed = false := by simp [Instr.wellFormed, h]
theorem test_wf_timeout : (Instr.presenceTimeout 0).wellFormed = false
    ∧ (Instr.presenceTimeout 32).wellFormed = false ∧ (Instr.presenceTimeout 31).wellFormed = true := by decide
theorem test_wf_readTry (d : List Byte) (h : d.length = 65537) :
    (Instr.blockReadTryEnd .s0 (some d)).wellFormed = false := by simp [Instr.wellFormed, wellFormedBlock, h]
theorem test_wf_place : (Instr.segmentIdleTimerExpiry 8).wellFormed = false
    ∧ (Instr.reservationTimerExpiry 8).wellFormed = false ∧ (Instr.reservationTimerExpiry 7).wellFormed = true := by
  decide
theorem test_wf_report : (Instr.reportTimerExpiry .s0 65536 2).wellFormed = false
    ∧ (Instr.reportTimerExpiry .s0 0 0).wellFormed = false
    ∧ (Instr.reportTimerExpiry .s0 0 32).wellFormed = false := by decide
theorem test_wf_attach : (Instr.driveAttach .dc0 ⟨.array, 0x100000000, 0⟩).wellFormed = false
    ∧ (Instr.driveAttach .dc0 ⟨.array, 0, 0x100000000⟩).wellFormed = false := by decide
theorem test_wf_readback (blocks : List (List Byte)) (h : blocks.length = 257) :
    (Instr.digestReadbackDone .dc0 blocks).wellFormed = false
      ∧ (Instr.digestReadbackDone .dc0 []).wellFormed = false := by simp [Instr.wellFormed, h]
theorem test_wf_compare (d : List Byte) (h : d.length = 65537) :
    (Instr.fullComparePair .dc0 d).wellFormed = false := by simp [Instr.wellFormed, wellFormedBlock, h]

/-! ## Worked values of the manual -/

/-- The CRC of the nine characters 1 to 9, and of no bytes (R99). -/
theorem test_crc : crc [0x31, 0x32, 0x33, 0x34, 0x35, 0x36, 0x37, 0x38, 0x39] = 0xE3069283
    ∧ crc [] = 0 := by decide +kernel

/-- The three-block fold of chapter 6, in order and with two blocks in each other's places. -/
theorem test_fold : segmentFold [0xA0000001, 3, 0x80000000] = 0xA0000005
    ∧ segmentFold [3, 0xA0000001, 0x80000000] = 0x40000002 := by decide +kernel

/-- The tone table of the worked pixel of chapter 8. -/
def tone8 : List Nat :=
  List.replicate 11 0 ++ [1500, 1620, 0, 1880, 2000, 2150, 2280] ++ List.replicate 15 0

/-- The worked pixel of chapter 8. -/
theorem test_pixel : gradePixel ⟨1100, 1024, 980, -40, 0, 25, tone8, 1229⟩ ⟨2000, 1800, 1500⟩
    = (⟨2262, 1874, 1469⟩, false) := by decide +kernel

/-- The expected times of chapter 9: 11,261 and 15,015 ticks after the base, and the time that wraps. -/
theorem test_expected : expectedTime 1000 3 24000 1001 = 12261 ∧ expectedTime 1000 4 24000 1001 = 16015
    ∧ expectedTime 4294966000 1 24000 1001 = 2457 := by decide +kernel

/-- The arbitration words of two classes (R2). -/
theorem test_arbitration : arbitrationWord 0 1 = 3 ∧ arbitrationWord 3 31 = 255 := by decide

/-- No word of the table spells a command. -/
theorem test_decode (n w : Nat) : decodeTableWord n w = none ∧ State.reset.withFetchWord n w = State.reset := ⟨rfl, rfl⟩

/-! ## Small states -/

/-- The state a command leads to; the same state where it leads to none. -/
def after (c : Instr) (s : State) : State :=
  match exec c s with
  | .next t => t
  | _ => s

/-- Station 1 in RUN, LOCKED, after a load of the default image but for its number. -/
def run1 : State :=
  { State.reset with
    image := some { defaultImage with station := 1 }
    trunk := { Trunk.start with mode := .run, locked := true } }

/-- The tag of station 1's first card. -/
def tag1 : Tag := ⟨1, 0⟩

/-- A tag of station 2. -/
def tag2 : Tag := ⟨2, 5⟩

/-- The bytes of tag1 and tag2 in a body. -/
def tag1Bytes : List Byte := [1, 0, 0, 0]
def tag2Bytes : List Byte := [2, 5, 0, 0]

/-- A PEER target on station 2 with two cells. -/
def peer2 : Target := ⟨.peer 2, .writing, 1, [⟨.sent, 1, some 5000⟩, ⟨.sent, 3, some 5000⟩], none⟩

/-- A LOCAL target on DC0 with reserved run 0. -/
def local0 : Target := ⟨.localPort .dc0, .writing, 1, [⟨.sent, 1, none⟩, ⟨.notSent, 1, none⟩], some 0⟩

/-- A clip of blocks 1 to 24. -/
def clip1 : Clip := { indexClip [] 3 0 with first := 1, count := 24 }

/-- A card of 300 blocks, copying. -/
def card1 : CardRecord :=
  { freshRecord tag1 2 with
    state := .copying, blockCount := 300, segmentCount := 2, rows := [⟨256, some 7⟩, ⟨44, some 7⟩],
    targets := [peer2, local0], clips := [clip1] }

/-- A slot that reads block 299 of the first pass. -/
def reader1 : SlotReader :=
  { SlotReader.start with state := .reading, size := 300, queue := [.firstPass], progress := some ⟨299, none, 0, false⟩ }

/-- A READY port with a run of tag1's LOCAL target. -/
def port1 : Channel :=
  { Channel.start with
    state := .ready, cls := some .flash, fig := ⟨1000, 10, 300⟩, runs := [⟨0, .card .s0 tag1, 300, [], false⟩] }

/-- Station 1 with the card in slot 0 and the drive at DC0. -/
def busy1 : State :=
  { run1 with
    slots := run1.slots.set .s0 reader1, cards := run1.cards.set .s0 (some card1),
    ports := ⟨port1, .start⟩, nextRun := 1 }

/-- A block write of run 0. -/
def write1 : WorkItem := .write 0 298 1 0 []

/-- A hosted entry for station 2's card on DC0, with run 9. -/
def entry2 : HostedEntry :=
  { tag := tag2, round := 1, port := .dc0, blockCount := 300, segmentCount := 2, state := .receiving, run := 9,
    reservationTimer := none, highest := some 0, opened := some ⟨0, 1, [0], false, false, 500⟩, lastClosed := none,
    lastMismatch := 0xFFFF, owed := [] }

/-- Station 1 that hosts an entry in its first place. -/
def hosting (e : HostedEntry) : State :=
  { run1 with
    hosted := some e :: List.replicate 7 none
    ports := ⟨{ port1 with runs := [⟨9, .hosted tag2, 300, [], false⟩] }, .start⟩ }

/-- A state whose control receive queue holds one message. -/
def receiving (m : Message) (s : State) : State := { s with trunk := { s.trunk with recvQ := [m] } }

/-- The record of slot 0 changed. -/
def withCard (c : CardRecord) (s : State) : State := { s with cards := s.cards.set .s0 (some c) }

/-- DC0 changed. -/
def withPort (c : Channel) (s : State) : State := { s with ports := ⟨c, s.ports.dc1⟩ }

/-- A frame of clip 0 of tag1, in slot 0. -/
def frame1 (st : FrameState) : FrameEntry := ⟨.s0, tag1, 0, 0, 0, [], st⟩

/-- The frame queue of a state set. -/
def queued (q : List FrameEntry) (s : State) : State := { s with grade := { s.grade with queue := q } }

/-! ## Steps, resets and the image -/

theorem test_idle : State.reset.pending = [] := rfl

/-- An entry at the timeout and one past it, with no command waiting. -/
theorem test_overdue : ∃ s : State, s.pending = [] ∧ s.trunk.presence = [⟨2, 1000, none⟩] ++ ⟨3, 1001, none⟩ :: []
    ∧ (∀ x ∈ [(⟨2, 1000, none⟩ : PresenceEntry)], x.age ≤ s.cfg.presenceTimeout) ∧ s.cfg.presenceTimeout < 1001 :=
  ⟨{ run1 with trunk := { run1.trunk with presence := [⟨2, 1000, none⟩, ⟨3, 1001, none⟩] } }, rfl, rfl, by decide, by decide⟩

theorem test_startReset_drive :
    (after (.startReset ⟨some ⟨.flash, 10, 20⟩, none⟩ (.all none)) busy1).ports.dc0.fig = ⟨10, 10, 0⟩ := by decide

/-- The three ways a memory fails, and one that is good with a copy count above its range. -/
theorem test_memory :
    (∃ i, i < 32 ∧ ([] : List (Option Byte)).getD i none = none)
    ∧ (∃ b : List Byte, b.length = 32 ∧ b.getD 0 0 ≠ 0xD7)
    ∧ (∃ b : List Byte, b.length = 32 ∧ b.getD 0 0 = 0xD7 ∧ (b.map BitVec.toNat).sum % 256 ≠ 0)
    ∧ ∃ b : List Byte, b.length = 32 ∧ b.getD 0 0 = 0xD7 ∧ (b.map BitVec.toNat).sum % 256 = 0
        ∧ ((loadImage (b.map some)).1.station, (loadImage (b.map some)).1.k) = (1, 4) :=
  ⟨⟨0, by decide⟩, ⟨List.replicate 32 0, by decide⟩, ⟨0xD7 :: List.replicate 31 0, by decide⟩,
    ⟨0xD7 :: 1 :: 40 :: List.replicate 29 0, by decide +kernel⟩⟩

/-- A load that defaults, one that does not, with a card seated and a slot empty. -/
theorem test_load : ∃ s : State, s.image = none ∧ s.seated.get .s0 = some 9 ∧ s.seated.get .s1 = none
    ∧ s.stationLog = ⟨[], [0, 0, 0, 0, 0], false⟩
    ∧ (loadImage []).2 = some 3 ∧ (loadImage []).1.station = 0
    ∧ (loadImage ((0xD7 :: 1 :: 40 :: List.replicate 29 0 : List Byte).map some)).2 = none
    ∧ (loadImage ((0xD7 :: 1 :: 40 :: List.replicate 29 0 : List Byte).map some)).1.station ≠ 0 :=
  ⟨{ State.reset with seated := ⟨some 9, none, none, none⟩ }, by decide +kernel⟩

/-! ## The trunk -/

/-- A record of a loss of lock. -/
def lossRecord : FaultRecord := ⟨.syncLost, none, 0, 0, 1, 0, none⟩

/-- Losses with the flag clear and a free place, with the flag clear and none, and with the flag set and a record to
extend; while UNLOCKED, and during the load. -/
theorem test_lock :
    (run1.image.isSome = true ∧ run1.trunk.locked = true ∧ run1.trunk.syncLost = false
      ∧ run1.stationLog.records.length < 8)
    ∧ (∃ s : State, s.image.isSome = true ∧ s.trunk.locked = true ∧ s.trunk.syncLost = false
        ∧ 8 ≤ s.stationLog.records.length)
    ∧ (∃ s : State, s.image.isSome = true ∧ s.trunk.locked = true ∧ s.trunk.syncLost = true
        ∧ s.stationLog.records = [] ++ lossRecord :: [])
    ∧ (∃ s : State, s.trunk.locked = true ∧ s.image = none) ∧ State.reset.trunk.locked = false :=
  ⟨by decide, ⟨{ run1 with stationLog := ⟨List.replicate 8 lossRecord, [8, 0, 0, 0, 0], false⟩ }, by decide⟩,
    ⟨{ run1 with trunk := { run1.trunk with syncLost := true }, stationLog := ⟨[lossRecord], [1, 0, 0, 0, 0], false⟩ },
      by decide⟩,
    ⟨{ State.reset with trunk := { Trunk.start with locked := true } }, by decide⟩, by decide⟩

theorem test_envelope : 1 ≤ 31 ∧ 31 ≤ 31 ∧ (List.replicate 8 (0 : Byte)).length % 4 = 0
    ∧ goodMessage (envelope 31 .hold 31 (List.replicate 8 0))
        = some (127, ⟨0x33, 31, 31, List.replicate 8 0⟩) := by decide +kernel

/-- A HOLD request from station 2 for this station, and one of its bytes wrong. -/
theorem test_received :
    (∃ m, goodMessage (envelope 2 .hold 1 (tag1Bytes ++ [1, 0, 0, 0])) = some (69, m)
      ∧ Kind.ofCode m.code = some .hold ∧ m.source ≠ run1.own ∧ m.target = run1.own
      ∧ Kind.hold.isRequest = true ∧ Kind.hold.lengthAllowed (m.body.length / 4) = true
      ∧ run1.mode = .run ∧ run1.trunk.recvQ.length < 32)
    ∧ goodMessage (envelope 2 .hold 1 (tag1Bytes ++ [1, 0, 0, 0]) ++ [9] |>.set 7 9) = none :=
  ⟨⟨⟨0x33, 2, 1, tag1Bytes ++ [1, 0, 0, 0]⟩, by decide +kernel⟩, by decide +kernel⟩

/-- A message for another station, one that is no request and of a wrong length, and an unknown kind to all, here in
class 0, and here in class 1. -/
theorem test_unwanted :
    (∃ m, goodMessage (envelope 2 .hold 9 (tag1Bytes ++ [1, 0, 0, 0])) = some (69, m) ∧ m.code ≠ Kind.presence.code
      ∧ m.target ≠ 0 ∧ m.target ≠ run1.own ∧ m.source ≠ run1.own)
    ∧ (∃ m, goodMessage (envelope 2 .runCancel 1 tag2Bytes) = some (5, m) ∧ Kind.ofCode m.code = some .runCancel
        ∧ Kind.runCancel.isRequest = false ∧ Kind.runCancel.lengthAllowed (m.body.length / 4) = false)
    ∧ (∃ m, goodMessage ([5, 0x7F, 2, 0, 0, 0] ++ leWord (crc [5, 0x7F, 2, 0, 0, 0])) = some (5, m)
        ∧ Kind.ofCode m.code = none ∧ m.target = 0)
    ∧ (∃ m, goodMessage ([5, 0x7F, 2, 1, 0, 0] ++ leWord (crc [5, 0x7F, 2, 1, 0, 0])) = some (5, m)
        ∧ Kind.ofCode m.code = none ∧ m.target = run1.own ∧ m.target ≠ 0)
    ∧ ∃ m, goodMessage ([69, 0x7F, 2, 1, 0, 0] ++ leWord (crc [69, 0x7F, 2, 1, 0, 0])) = some (69, m)
        ∧ Kind.ofCode m.code = none ∧ m.target = run1.own :=
  ⟨⟨⟨0x33, 2, 9, tag1Bytes ++ [1, 0, 0, 0]⟩, by decide +kernel⟩, ⟨⟨0x12, 2, 1, tag2Bytes⟩, by decide +kernel⟩,
    ⟨⟨0x7F, 2, 0, []⟩, by decide +kernel⟩, ⟨⟨0x7F, 2, 1, []⟩, by decide +kernel⟩, ⟨⟨0x7F, 2, 1, []⟩, by decide +kernel⟩⟩

/-- The two quiet modes, with a class 0 message for this station and one broadcast. -/
theorem test_quiet :
    (∃ s : State, s.image.isSome = true ∧ s.trunk.locked = true ∧ s.mode = .silent ∧ s.own = 1)
    ∧ (∃ s : State, s.image.isSome = true ∧ s.trunk.locked = true ∧ s.mode = .localOnly ∧ s.own = 0)
    ∧ (∃ m, goodMessage (envelope 2 .runCancel 1 (tag2Bytes ++ [1, 0, 0, 0])) = some (5, m) ∧ m.target = 1
        ∧ Kind.ofCode m.code = some .runCancel ∧ Kind.runCancel.lengthAllowed (m.body.length / 4) = true)
    ∧ (∃ m, goodMessage (envelope 2 .runCancel 0 (tag2Bytes ++ [1, 0, 0, 0])) = some (5, m) ∧ m.target = 0) :=
  ⟨⟨{ run1 with trunk := { run1.trunk with mode := .silent } }, by decide⟩,
    ⟨{ run1 with image := some defaultImage, trunk := { run1.trunk with mode := .localOnly } }, by decide⟩,
    ⟨⟨0x12, 2, 1, tag2Bytes ++ [1, 0, 0, 0]⟩, by decide +kernel⟩,
    ⟨⟨0x12, 2, 0, tag2Bytes ++ [1, 0, 0, 0]⟩, by decide +kernel⟩⟩

/-- A PRESENCE of station 2, and a table with another station in it. -/
theorem test_presence :
    (∃ m, goodMessage (envelope 2 .presence 0 (List.replicate 12 0)) = some (133, m)
      ∧ m.code = Kind.presence.code ∧ m.body.length = 12 ∧ m.source ≠ run1.own)
    ∧ (∃ e ∈ [(⟨9, 4, none⟩ : PresenceEntry)], e.station ≠ 2) ∧ presenceOrdered [⟨9, 4, none⟩] :=
  ⟨⟨⟨0x40, 2, 0, List.replicate 12 0⟩, by decide +kernel⟩, ⟨⟨9, 4, none⟩, by decide, by decide⟩, by simp [presenceOrdered]⟩

/-- The body of a BLOCK of tag2: block 1, attempt 1, 65,536 bytes of zeros. -/
def blockOfTag2 : List Byte :=
  tag2Bytes ++ [1, 0, 0, 0, 1, 0, 0, 0, 0, 0, 1, 0] ++ List.replicate 48 0 ++ List.replicate 65536 0

/-- The first six bytes of its envelope, and the bytes that the frame check covers. -/
def blockFront : List Byte := [0xC5, 0x60, 2, 0, 0x10, 0x40] ++ blockOfTag2

theorem test_block_length : blockOfTag2.length = 65600 := by
  simp only [blockOfTag2, tag2Bytes, List.length_append, List.length_replicate, List.length_cons, List.length_nil]

theorem test_block_good :
    goodMessage (blockFront ++ leWord (crc blockFront)) = some (0xC5, ⟨0x60, 2, 0, blockOfTag2⟩) := by
  have size : blockFront.length = 6 + 4 * 16400 := by
    simp only [blockFront, List.length_append, test_block_length, List.length_cons, List.length_nil]
  have good := goodMessage_checked blockFront .block 16400 size (by decide +kernel) (by decide) (by decide +kernel)
    (by decide +kernel) (by decide +kernel) (by decide +kernel) (by decide +kernel)
  have body : blockFront.drop 6 = blockOfTag2 := rfl
  have figures : byteAt blockFront 0 = 0xC5 ∧ blockFront.getD 1 0 = 0x60 ∧ byteAt blockFront 2 = 2
      ∧ byteAt blockFront 3 = 0 := by decide +kernel
  rw [body, figures.1, figures.2.1, figures.2.2.1, figures.2.2.2] at good
  exact good

/-- The BLOCK meets an entry in RECEIVING with a free buffer, finds none in RECEIVING, and finds no buffer. -/
theorem test_block :
    (hosting entry2).freeBuffer = some 0 ∧ (readBlock ⟨0x60, 2, 0, blockOfTag2⟩ 0).isSome = true
    ∧ ((hosting entry2).receiving (tagAt blockOfTag2)).isSome = true
    ∧ (run1.receiving (tagAt blockOfTag2)).isNone = true
    ∧ ({ run1 with trunk := { run1.trunk with
          bulk := [⟨0, tag2, 0, 1, false, false, 0, []⟩, ⟨1, tag2, 0, 1, false, false, 0, []⟩,
            ⟨2, tag2, 0, 1, false, false, 0, []⟩, ⟨3, tag2, 0, 1, false, false, 0, []⟩] } } : State).freeBuffer
        = none := by decide +kernel

/-- A message with this station's number, a card in SHORT, one in CLAIMING, and one that waits in INDEXING for RUN. -/
theorem test_duplicate :
    (∃ m, goodMessage (envelope 1 .hold 0 (tag1Bytes ++ [1, 0, 0, 0])) = some (67, m) ∧ m.source = run1.own)
    ∧ run1.mode = .run ∧ run1.trunk.tx = none
    ∧ (∃ s : State, s.mode = .listen ∧ s.own = 1 ∧ (∃ c, s.card .s0 = some c ∧ c.state = .short)
        ∧ (∃ c, s.card .s1 = some c ∧ c.state = .claiming)
        ∧ (s.slot .s2).state = .ready ∧ ∃ c, s.card .s2 = some c ∧ c.state = .indexing ∧ c.waitingForRun = true
          ∧ c.round = 1 ∧ ∃ x ∈ c.targets, x.state = .pending) :=
  ⟨⟨⟨0x33, 1, 0, tag1Bytes ++ [1, 0, 0, 0]⟩, by decide +kernel⟩, rfl, rfl,
    ⟨{ run1 with
        trunk := { run1.trunk with mode := .listen }
        slots := run1.slots.set .s2 { SlotReader.start with state := .ready, size := 300 }
        cards := ⟨some { card1 with state := .short }, some { card1 with state := .claiming },
          some { card1 with state := .indexing, waitingForRun := true, targets := [{ local0 with state := .pending }] },
          none⟩ },
      rfl, rfl, ⟨_, rfl, rfl⟩, ⟨_, rfl, rfl⟩, rfl, _, rfl, rfl, rfl, rfl, _, List.mem_singleton.2 rfl, rfl⟩⟩

/-- A waiting BLOCK of tag1. -/
def staged1 : StagedBlock := ⟨some .s0, 0, tag1, 299, 1, true, false, 0, []⟩

/-- Offers of class 0 past a message of class 2, of the publication queue, and of the staging buffers; a lower word
heard, and one that is not lower. -/
theorem test_offer :
    (∃ s : State, s.trunk.sendQ = [⟨.presence, 0, []⟩] ++ ⟨.runEnd, 0, []⟩ :: []
      ∧ (∀ x ∈ [(⟨.presence, 0, []⟩ : OutMessage)], x.kind.cls ≠ Kind.runEnd.cls)
      ∧ (∀ x ∈ s.trunk.sendQ, Kind.runEnd.cls ≤ x.kind.cls)
      ∧ s.offer = some (.control 0, ⟨.runEnd, 0, []⟩) ∧ arbitrationWord 0 s.own = 3)
    ∧ (∃ s : State, s.trunk.sendQ = [] ∧ s.pubQ = [⟨.faultNotice, 0, []⟩])
    ∧ (∃ s : State, s.trunk.sendQ = [] ∧ s.pubQ = [] ∧ s.trunk.staging = [staged1] ∧ s.mode = .run
        ∧ s.trunk.tx = none ∧ s.trunk.locked = true ∧ s.offer.isSome = true)
    ∧ run1.offer = none ∧ (2 : Byte).toNat < 3 ∧ 3 ≤ (3 : Byte).toNat :=
  ⟨⟨{ run1 with trunk := { run1.trunk with sendQ := [⟨.presence, 0, []⟩, ⟨.runEnd, 0, []⟩] } },
      by decide +kernel⟩,
    ⟨{ run1 with pubQ := [⟨.faultNotice, 0, []⟩] }, by decide⟩,
    ⟨{ run1 with trunk := { run1.trunk with staging := [staged1] } }, rfl, rfl, rfl, rfl, rfl, rfl, rfl⟩,
    by decide, by decide, by decide⟩

theorem test_deferral : run1.trunk.tx = none := rfl

/-- A sent control message, publication and BLOCK. -/
theorem test_sent :
    (∃ s : State, s.trunk.tx = some ⟨.control (Kind.presence).cls, []⟩
      ∧ s.trunk.sendQ = [] ++ ⟨.presence, 0, []⟩ :: [])
    ∧ (∃ s : State, s.trunk.tx = some ⟨.publication, []⟩ ∧ s.pubQ = ⟨.faultNotice, 0, []⟩ :: [])
    ∧ ∃ s : State, s.trunk.tx = some ⟨.staging, []⟩
        ∧ s.trunk.staging = { staged1 with lastOfSegment := false } :: [] :=
  ⟨⟨{ run1 with trunk := { run1.trunk with tx := some ⟨.control 2, []⟩, sendQ := [⟨.presence, 0, []⟩] } }, rfl, rfl⟩,
    ⟨{ run1 with trunk := { run1.trunk with tx := some ⟨.publication, []⟩ }, pubQ := [⟨.faultNotice, 0, []⟩] },
      rfl, rfl⟩,
    ⟨{ run1 with trunk := { run1.trunk with
        tx := some ⟨.staging, []⟩, staging := [{ staged1 with lastOfSegment := false }] } }, rfl, rfl⟩⟩

/-- A sent announce of a record in CLAIMING, and the sent last BLOCK of segment 1 for a target in SENT. -/
theorem test_sent_timers :
    (∃ s : State, s.trunk.tx = some ⟨.control 1, []⟩
      ∧ s.trunk.sendQ = [] ++ ⟨.cardAnnounce, 0, tag1Bytes ++ [1, 1, 0, 0]⟩ :: []
      ∧ s.holderOf (tagAt (tag1Bytes ++ [1, 1, 0, 0])) = some .s0
      ∧ ∃ c, s.card .s0 = some c ∧ c.state = .claiming ∧ c.window = .unsent 1
        ∧ c.round = byteAt (tag1Bytes ++ [1, 1, 0, 0]) 4)
    ∧ ∃ s : State, s.trunk.tx = some ⟨.staging, []⟩ ∧ s.trunk.staging = staged1 :: [] ∧ staged1.lastOfSegment = true
        ∧ s.holderOf staged1.tag = some .s0 ∧ ∃ c x, s.card .s0 = some c ∧ c.state ≠ .abandoned
          ∧ c.target (.peer 2) = some x ∧ x.cells[staged1.index / 256]? = some ⟨.sent, staged1.attempt, none⟩ :=
  ⟨⟨{ withCard { card1 with state := .claiming, window := .unsent 1 } run1 with
        trunk := { run1.trunk with
          tx := some ⟨.control 1, []⟩, sendQ := [⟨.cardAnnounce, 0, tag1Bytes ++ [1, 1, 0, 0]⟩] } },
      rfl, rfl, by decide, _, rfl, rfl, rfl, by decide⟩,
    ⟨{ withCard { card1 with targets := [{ peer2 with cells := [⟨.verified, 1, none⟩, ⟨.sent, 1, none⟩] }] } run1 with
        trunk := { run1.trunk with tx := some ⟨.staging, []⟩, staging := [staged1] } },
      rfl, rfl, rfl, by decide, _, _, rfl, by decide, rfl, by decide⟩⟩

theorem test_sweep : ∃ (s : State) (rest : List OutMessage), s.trunk.tx = some ⟨.publication, []⟩ ∧ s.mode = .run
    ∧ s.pubQ = ⟨.faultNotice, 0, []⟩ :: rest ∧ rest.length = 16 ∧ s.stationLog.pending = true :=
  ⟨{ run1 with
      trunk := { run1.trunk with tx := some ⟨.publication, []⟩ }
      pubQ := List.replicate 17 ⟨.faultNotice, 0, []⟩, stationLog := ⟨[], [0, 0, 0, 0, 0], true⟩ },
    List.replicate 16 ⟨.faultNotice, 0, []⟩, rfl, rfl, rfl, rfl, rfl⟩

theorem test_interval : (∃ s : State, s.trunk.presenceTimer = some 250 ∧ s.mode = .run)
    ∧ busy1.hosted.length = 8 ∧ (busy1.port .dc0).freeBlocks < 4294967296
    ∧ (busy1.port .dc1).freeBlocks < 4294967296 :=
  ⟨⟨{ run1 with trunk := { run1.trunk with presenceTimer := some 250 } }, rfl, rfl⟩, by decide⟩

/-- Station 2, past the timeout, is lost while it holds a target, with entries of its cards in RESERVED and RECEIVING
and another's. -/
theorem test_lost : ∃ s : State, (∃ e ∈ s.trunk.presence, e.station = 2 ∧ s.cfg.presenceTimeout < e.age)
    ∧ (∃ c x, s.card .s0 = some c ∧ c.state ≠ .abandoned ∧ c.target (.peer 2) = some x ∧ x.active = true)
    ∧ (∃ c, s.card .s1 = some c ∧ c.state = .abandoned)
    ∧ (∃ e, s.hostedAt 0 = some e ∧ e.tag.station = 2 ∧ e.state = .reserved)
    ∧ (∃ e, s.hostedAt 1 = some e ∧ e.tag.station = 2 ∧ e.state = .receiving)
    ∧ ∃ e, s.hostedAt 7 = some e ∧ e.tag.station ≠ 2 :=
  ⟨{ busy1 with
      trunk := { run1.trunk with presence := [⟨2, 1001, none⟩] }
      cards := ⟨some card1, some { card1 with tag := ⟨1, 1⟩, state := .abandoned }, none, none⟩
      hosted := [some { entry2 with state := .reserved, tag := ⟨2, 6⟩ }, some entry2, none, none, none, none, none,
        some { entry2 with tag := ⟨3, 0⟩ }] },
    ⟨_, List.mem_singleton.2 rfl, rfl, by decide⟩, ⟨_, _, rfl, by decide, rfl, by decide⟩, ⟨_, rfl, rfl⟩, ⟨_, rfl, rfl, rfl⟩,
    ⟨_, rfl, rfl, rfl⟩, ⟨_, rfl, by decide⟩⟩

/-- Station 2 is lost past the timeout with no claim window of its own, once ranked beside another station, and once
refreshed, at the timeout. -/
theorem test_ranked : ∃ (s : State) (c : CardRecord), (∃ e ∈ s.trunk.presence, e.station = 2 ∧ s.cfg.presenceTimeout < e.age)
    ∧ s.card .s0 = some c ∧ c.state = .claiming ∧ c.window = .opened 2 [2, 3] 300 ∧ 2 ∈ [2, 3]
    ∧ (∀ x ∈ c.targets, x.key ≠ .peer 2) ∧ s.cfg.claimWindow ≠ 0
    ∧ (s.hosted.take 8).countP (fun o => o.any fun e => e.tag.station == 2 && e.state == .receiving) = 0
    ∧ ∀ e ∈ [(⟨2, 1000, none⟩ : PresenceEntry)], e.station = 2 → e.age ≤ s.cfg.presenceTimeout :=
  ⟨{ withCard { card1 with state := .claiming, window := .opened 2 [2, 3] 300, targets := [local0] } run1 with
      trunk := { run1.trunk with presence := [⟨2, 1001, none⟩] } },
    { card1 with state := .claiming, window := .opened 2 [2, 3] 300, targets := [local0] },
    ⟨_, List.mem_singleton.2 rfl, rfl, by decide⟩, rfl, rfl, rfl, by decide, by decide, by decide, by decide, by decide⟩

theorem test_listen : ∃ s : State, s.mode = .listen ∧ s.trunk.listenTimer = some 500 ∧ s.trunk.locked = true
    ∧ s.trunk.sendQ.length < 48 ∧ (∀ m ∈ s.trunk.sendQ, m.kind ≠ .presence) ∧ s.trunk.presence ≠ []
    ∧ (∃ c, s.card .s0 = some c ∧ c.state = .indexing ∧ c.waitingForRun = true)
    ∧ ∃ c, s.card .s1 = some c ∧ c.waitingForRun = false :=
  ⟨{ run1 with
      trunk := { run1.trunk with mode := .listen, listenTimer := some 500, presence := [⟨2, 0, none⟩] }
      cards := ⟨some { card1 with state := .indexing, waitingForRun := true, targets := [] }, some card1, none, none⟩ },
    rfl, rfl, rfl, by decide, by decide, by decide, ⟨_, rfl, rfl, rfl⟩, ⟨_, rfl, rfl⟩⟩

/-! ## Slots and card records -/

theorem test_blink : run1.card .s0 = none ∧ (∃ c, (withCard { card1 with state := .held } run1).card .s0 = some c
    ∧ c.state = .held) ∧ ∃ c, (withCard card1 run1).card .s0 = some c ∧ c.state = .copying :=
  ⟨rfl, ⟨_, rfl, rfl⟩, ⟨_, rfl, rfl⟩⟩

/-- Insertion during the load, and in RUN while another slot's record holds the counter's serial. -/
theorem test_insert : ((State.reset.slot .s0).state = .empty ∧ State.reset.seated.get .s0 = none
      ∧ State.reset.image = none)
    ∧ (busy1.slot .s1).state = .empty ∧ busy1.seated.get .s1 = none ∧ busy1.image.isSome = true
    ∧ (∃ c, busy1.card .s0 = some c ∧ c.tag.serial = busy1.serial)
    ∧ ∀ j c', j ≠ .s1 → run1.card j = some c' → c'.tag.serial ≠ run1.serial :=
  ⟨by decide, by decide, by decide, by decide, ⟨_, rfl, by decide⟩, fun j c' _ h => by cases j <;> cases h⟩

theorem test_removal : (busy1.slot .s0).state ≠ .empty ∧ (∃ c, busy1.card .s0 = some c ∧ c.state = .copying
      ∧ ∃ x ∈ c.targets, x.isPeer = true ∧ x.active = true) ∧ busy1.takesControl = true
    ∧ ∃ c, (withCard { card1 with state := .releasable } busy1).card .s0 = some c ∧ c.state = .releasable :=
  ⟨by decide, ⟨_, rfl, rfl, peer2, by decide, by decide, by decide⟩, by decide, ⟨_, rfl, rfl⟩⟩

/-- A removal with a staging buffer claimed, free to go or being transmitted, with a FILLING frame, and with the first
write of a block of the LOCAL target in service. -/
theorem test_removal_sides :
    (∃ s : State, (s.slot .s0).state = .reading ∧ s.trunk.tx = none ∧ s.trunk.staging = staged1 :: []
      ∧ staged1.owner = some .s0 ∧ s.grade.queue = [] ++ frame1 .filling :: [] ∧ (frame1 .filling).slot = .s0
      ∧ ∃ c k, s.card .s0 = some c ∧ c.clips[(frame1 .filling).clip]? = some k)
    ∧ (∃ s : State, s.trunk.tx = some ⟨.staging, []⟩ ∧ s.trunk.staging = staged1 :: [])
    ∧ ∃ (s : State) (c : CardRecord) (r : Run), s.card .s0 = some c ∧ c.state ≠ .abandoned ∧ local0 ∈ c.targets
      ∧ (∀ y ∈ c.targets, y.key = .localPort .dc0 → y = local0)
      ∧ (s.port .dc0).serving = some (.write 0 298 1 0 []) ∧ 298 ∉ r.written ∧ 1 ≤ r.reservation
      ∧ (s.port .dc0).runs.find? (fun r => r.id == 0) = some r :=
  ⟨⟨{ queued [frame1 .filling] busy1 with trunk := { run1.trunk with staging := [staged1] } }, rfl, rfl, rfl, rfl, rfl,
      rfl, _, _, rfl, rfl⟩,
    ⟨{ busy1 with trunk := { run1.trunk with staging := [staged1], tx := some ⟨.staging, []⟩ } }, rfl, rfl⟩,
    ⟨withPort { port1 with serving := some write1 } busy1, card1, ⟨0, .card .s0 tag1, 300, [], false⟩, rfl, by decide,
      by decide, by decide, rfl, by decide, by decide, rfl⟩⟩

/-- A slot of a state mounting block 0. -/
def mounting1 : State := { busy1 with slots := busy1.slots.set .s0 { SlotReader.start with state := .mounting, size := 300 } }

/-- The third failure at block 299, in no clip, and at block 24, the last of a clip. -/
theorem test_readTry :
    ((busy1.slot .s0).tries < 2 ∧ (busy1.slot .s0).state = .reading ∧ (busy1.slot .s0).queue = [.firstPass]
      ∧ ∃ p, (busy1.slot .s0).progress = some p ∧ p.hand = none)
    ∧ (mounting1.slot .s0).state = .mounting
    ∧ (∃ s : State, (s.slot .s0).state = .reading ∧ (s.slot .s0).queue = [.firstPass]
        ∧ (s.slot .s0).progress = some ⟨299, none, 0, false⟩ ∧ (s.slot .s0).tries = 2
        ∧ ∃ c, s.card .s0 = some c ∧ ∀ k ∈ c.clips, k.contains 299 = false)
    ∧ ∃ s : State, (s.slot .s0).progress = some ⟨24, none, 0, false⟩ ∧ (s.slot .s0).tries = 2
        ∧ ∃ c, s.card .s0 = some c ∧ c.clips = [] ++ clip1 :: [] ∧ clip1.contains 24 = true :=
  ⟨⟨by decide, rfl, rfl, _, rfl, rfl⟩, rfl,
    ⟨{ busy1 with slots := busy1.slots.set .s0 { reader1 with tries := 2 } }, rfl, rfl, rfl, rfl, _, rfl, by decide⟩,
    ⟨{ busy1 with slots := busy1.slots.set .s0 { reader1 with tries := 2, progress := some ⟨24, none, 0, false⟩ } },
      rfl, rfl, _, rfl, rfl, by decide⟩⟩

/-- A block 0 with the signature and one without. -/
theorem test_index : (mounting1.slot .s0).state = .mounting ∧ (∃ c, mounting1.card .s0 = some c)
    ∧ hasSignature (blockBytes [0xC7, 0x1D, 0x5E, 0xA2]) = true ∧ hasSignature (blockBytes []) = false :=
  ⟨rfl, ⟨_, rfl⟩, by decide +kernel, by decide +kernel⟩

/-- Block 0 of a mount after two failed tries. -/
theorem test_third_failure : ∃ s : State, (s.slot .s0).state = .mounting ∧ (s.slot .s0).tries = 2
    ∧ ∃ c, s.card .s0 = some c ∧ c.clips = [] ∧ (c.log.counts[0]?).isSome = true :=
  ⟨{ withCard (freshRecord tag1 2) run1 with
      slots := run1.slots.set .s0 { SlotReader.start with state := .mounting, size := 300, tries := 2 } },
    rfl, rfl, _, rfl, rfl, rfl⟩

/-- A new record whose index is read, in a mode. -/
def forming1 (mode : Mode) (k : Nat) (drive : Channel) : State :=
  { withPort drive (withCard (freshRecord tag1 k) mounting1) with trunk := { run1.trunk with mode := mode } }

/-- A record that gets its LOCAL target and is copied, one that waits in LISTEN, one that claims in RUN, one without a
target, and one that waits for a port. -/
theorem test_forming :
    (∃ c, (forming1 .run 1 port1).card .s0 = some c ∧ c.state = .indexing ∧ c.round = 1 ∧ c.targets = [] ∧ 1 ≤ c.k)
    ∧ ((forming1 .run 1 port1).slot .s0).waiting = [] ∧ (∀ p, ((forming1 .run 1 port1).port p).finishing = false)
    ∧ (forming1 .run 1 port1).uses .dc0 = true
    ∧ ((after (.blockReadTryEnd .s0 (some [])) (forming1 .run 1 port1)).card .s0).map CardRecord.state = some .copying
    ∧ ((after (.blockReadTryEnd .s0 (some [])) (forming1 .listen 2 port1)).card .s0).map CardRecord.waitingForRun = some true
    ∧ (let s := forming1 .run 2 port1
      ((after (.blockReadTryEnd .s0 (some [])) { s with trunk := { s.trunk with presence := [⟨2, 0, none⟩] } }).card .s0).map
        CardRecord.state = some .claiming)
    ∧ ((after (.blockReadTryEnd .s0 (some [])) (forming1 .silent 2 .start)).card .s0).map CardRecord.state = some .short
    ∧ (let s := { forming1 .run 2 .start with ports := ⟨{ port1 with finishing := true }, { port1 with runs := [] }⟩ }
      s.uses .dc0 = true ∧ (s.port .dc0).finishing = true
        ∧ ((after (.blockReadTryEnd .s0 (some [])) s).card .s0).map (fun c => (c.forming, c.targets.map Target.key))
          = some ([.dc0], [.localPort .dc1])) :=
  ⟨⟨_, rfl, rfl, rfl, rfl, by decide⟩, rfl, fun p => by cases p <;> rfl, by decide, by decide +kernel, by decide +kernel,
    by decide +kernel,
    by decide +kernel, by decide +kernel⟩

/-- Block 298 in hand, with room and without. -/
def inHand (room : Bool) : State :=
  { busy1 with
    slots := busy1.slots.set .s0 { reader1 with progress := some ⟨298, some ⟨298, [], 0, false⟩, 0, false⟩ }
    trunk := { run1.trunk with staging := if room then [] else [staged1, staged1, staged1] } }

theorem test_deliver :
    (∃ c, (inHand false).holding .s0 .firstPass ⟨298, some ⟨298, [], 0, false⟩, 0, false⟩ ⟨298, [], 0, false⟩ c)
    ∧ (inHand false).mayEnter (.slot .s0) = false ∧ (inHand true).mayEnter (.slot .s0) = true
    ∧ (∃ c, (inHand true).holding .s0 .firstPass ⟨298, some ⟨298, [], 0, false⟩, 0, false⟩ ⟨298, [], 0, false⟩ c
        ∧ PortId.dc0 ∈ c.copyPorts .firstPass ∧ (c.target (.localPort .dc0)).bind Target.run = some 0
        ∧ 298 + 1 < ReadItem.firstPass.stop c.blockCount)
    ∧ ReadItem.firstPass.isCompare = false ∧ ReadItem.firstPass.needsSettle = false :=
  ⟨⟨_, rfl, rfl, rfl, rfl⟩, by decide, by decide, ⟨_, ⟨rfl, rfl, rfl, rfl⟩, by decide, by decide, by decide⟩, rfl, rfl⟩

/-- The line of a slot that meets no room for the block it has read, and of one that meets room. -/
theorem test_read_line : ((inHand false).mayEnter (.slot .s0) = false ∧ .slot .s0 ∉ (inHand false).line)
    ∧ (inHand true).mayEnter (.slot .s0) = true := by decide

/-- Slots 0 and 1 with a block in hand each, and so many staging buffers full. -/
def twoHands (full : Nat) : State :=
  { withCard { card1 with targets := [peer2] } busy1 with
    slots := ⟨(inHand true).slots.s0, (inHand true).slots.s0, .start, .start⟩
    cards := ⟨some { card1 with targets := [peer2] }, some { card1 with tag := ⟨1, 1⟩, targets := [peer2] }, none, none⟩
    trunk := { run1.trunk with staging := List.replicate full staged1 } }

/-- Of two slots that found room, the one that loses the last buffer to the other begins to wait at once (R9); where
both have lost it, one that joins the line comes behind the other. -/
theorem test_lost_room :
    ((twoHands 2).mayEnter (.slot .s0) = true ∧ (twoHands 2).mayEnter (.slot .s1) = true
      ∧ (twoHands 2).line = [] ∧ (after (.blockDeliver .s0) (twoHands 2)).line = [.slot .s1])
    ∧ (twoHands 3).lineWith (.slot .s1) = [.slot .s0, .slot .s1]
    ∧ (noteWaiting (twoHands 3)).line = [.slot .s0, .slot .s1] := by decide +kernel

/-- Segment 0 read again for its LOCAL target, with so many writes in the port's queue. -/
def resending (queued : Nat) : State :=
  { withPort { port1 with queue := List.replicate queued (.write 0 1 1 0 []) } busy1 with
    slots := busy1.slots.set .s0 { reader1 with
      queue := [.resend 0 (.localPort .dc0) 1 2], progress := some ⟨0, some ⟨0, [], 0, false⟩, 0, false⟩ } }

/-- Room for the settle wait and the write, for the settle wait alone, and for neither. -/
theorem test_resend : (∃ c, (resending 14).holding .s0 (.resend 0 (.localPort .dc0) 1 2)
        ⟨0, some ⟨0, [], 0, false⟩, 0, false⟩ ⟨0, [], 0, false⟩ c
      ∧ c.copyPorts (.resend 0 (.localPort .dc0) 1 2) = [.dc0] ∧ (c.target (.localPort .dc0)).bind Target.run = some 0)
    ∧ (resending 14).mayEnter (.slot .s0) = true ∧ (resending 14).line = []
    ∧ ((resending 14).port .dc0).queue.length ≤ 14
    ∧ (resending 15).mayEnter (.slot .s0) = true ∧ 15 ≤ ((resending 15).port .dc0).queue.length
    ∧ (resending 16).mayEnter (.slot .s0) = false ∧ ReadItem.needsSettle (.resend 0 (.localPort .dc0) 1 2) = true :=
  ⟨⟨_, ⟨rfl, rfl, rfl, rfl⟩, by decide, by decide⟩, by decide, by decide, by decide, by decide, by decide, by decide, rfl⟩

/-- Block 256 of the first pass, the first of segment 1, goes to the LOCAL target; block 299 is the last of the card. -/
def atBlock (n : Nat) : State :=
  { busy1 with slots := busy1.slots.set .s0 { reader1 with progress := some ⟨n, some ⟨n, [], 0, false⟩, 0, false⟩ } }

theorem test_first_block : (∃ c x, (atBlock 256).holding .s0 .firstPass ⟨256, some ⟨256, [], 0, false⟩, 0, false⟩
        ⟨256, [], 0, false⟩ c
      ∧ (atBlock 256).mayEnter (.slot .s0) = true ∧ c.target (.localPort .dc0) = some x ∧ x.state = .writing
      ∧ 1 < x.cells.length ∧ PortId.dc0 ∈ c.copyPorts .firstPass ∧ (x.cell 1).state = .notSent)
    ∧ (∃ c x, (atBlock 299).card .s0 = some c ∧ lastOfSegment c.blockCount 299 = true ∧ PortId.dc0 ∈ c.copyPorts .firstPass
        ∧ c.target (.localPort .dc0) = some x ∧ x.run = some 0 ∧ (atBlock 299).mayEnter (.slot .s0) = true
        ∧ (atBlock 299).cfg.fullVerify = false) :=
  ⟨⟨_, _, ⟨rfl, rfl, rfl, rfl⟩, by decide, rfl, rfl, by decide, by decide, rfl⟩,
    ⟨_, _, rfl, by decide, by decide, rfl, rfl, by decide, rfl⟩⟩

/-- A resend that sends the head of the resend list, with another entry behind it. -/
def relisted : State :=
  { withCard { card1 with
      targets := [{ peer2 with cells := [⟨.resendListed, 2, none⟩, ⟨.resendListed, 2, none⟩] }]
      resend := [⟨0, .peer 2, 2⟩, ⟨1, .peer 2, 2⟩] } busy1 with
    slots := busy1.slots.set .s0 { reader1 with
      queue := [.resend 0 (.peer 2) 1 2], progress := some ⟨0, some ⟨0, [], 0, false⟩, 0, false⟩ } }

theorem test_relisted : (∃ c x, relisted.holding .s0 (.resend 0 (.peer 2) 1 2) ⟨0, some ⟨0, [], 0, false⟩, 0, false⟩
        ⟨0, [], 0, false⟩ c
      ∧ relisted.mayEnter (.slot .s0) = true ∧ c.target (.peer 2) = some x ∧ x.state = .writing ∧ x.roundFormed = 1
      ∧ (x.cell 0).state = .resendListed ∧ (x.cell 0).attempt = 2 ∧ c.resend = ⟨0, .peer 2, 2⟩ :: ⟨1, .peer 2, 2⟩ :: []
      ∧ (∀ e ∈ [(⟨1, .peer 2, 2⟩ : ResendEntry)], ¬ (e.segment = 0 ∧ e.target = .peer 2))
      ∧ 0 + 1 < (ReadItem.resend 0 (.peer 2) 1 2).stop c.blockCount)
    ∧ (ReadItem.resend 0 (.peer 2) 1 2).needsSettle = false :=
  ⟨⟨_, _, ⟨rfl, rfl, rfl, rfl⟩, by decide, rfl, rfl, rfl, rfl, rfl, rfl, by decide, by decide⟩, rfl⟩

/-! ## Rounds, claim windows and report timers -/

theorem test_window : (∃ c, (withCard { card1 with state := .claiming, window := .opened 1 [3, 4] 300 } run1).card .s0
      = some c ∧ c.window = .opened 1 [3, 4] 300) ∧ [3, 4].take 1 ≠ [] ∧ run1.takesControl = true :=
  ⟨⟨_, rfl, rfl⟩, by decide, by decide⟩

/-- A record in SHORT with its retry timer, with a station present and without. -/
def short1 : CardRecord := { card1 with state := .short, retryTimer := some 10, targets := [] }

/-- A request from station 2 for this station. -/
def request (k : Kind) (body : List Byte) : Message := ⟨k.code, 2, 1, body⟩

theorem test_retry :
    (∃ c, (withCard short1 run1).card .s0 = some c ∧ c.state = .short ∧ c.retryTimer = some 10)
    ∧ (∃ s : State, s.card .s0 = some short1 ∧ s.mode = .run ∧ s.trunk.presence ≠ [] ∧ s.trunk.sendQ.length < 48)
    ∧ ¬ ((withCard short1 run1).mode = .run ∧ (withCard short1 run1).trunk.presence ≠ [])
    ∧ ∃ s : State, s.heads .retryCopy (request .retryCopy tag1Bytes) [] ∧ s.holderOf (tagAt tag1Bytes) = some .s0
        ∧ (∃ c, s.card .s0 = some c ∧ c.state = .short ∧ c.round < 15 ∧ 1 ≤ min (c.k - c.verifiedCount) (3 - c.peerCount))
        ∧ s.mode = .run ∧ s.takesControl = true :=
  ⟨⟨_, rfl, rfl, rfl⟩,
    ⟨{ withCard short1 run1 with trunk := { run1.trunk with presence := [⟨2, 0, none⟩] } }, rfl, rfl, by decide,
      by decide⟩, by decide,
    ⟨receiving (request .retryCopy tag1Bytes) (withCard short1 run1), ⟨rfl, rfl⟩, by decide,
      ⟨_, rfl, rfl, by decide, by decide⟩, rfl, by decide⟩⟩

/-- A full queue opens the window at once, and a record at round 15 is refused. -/
theorem test_retry_edges :
    (∃ s : State, s.card .s0 = some short1 ∧ s.mode = .run ∧ 48 ≤ s.trunk.sendQ.length)
    ∧ ∃ c, (withCard { short1 with round := 15 } run1).card .s0 = some c ∧ c.state = .short ∧ ¬ c.round < 15 :=
  ⟨⟨{ withCard short1 run1 with trunk := { run1.trunk with sendQ := List.replicate 48 ⟨.runEnd, 0, []⟩ } }, rfl, rfl,
    by decide⟩, ⟨_, rfl, rfl, by decide⟩⟩

/-- A record in SETTLING with a target to end, with its two copies, on hold with them, and with one copy beside a
FAILED target of the round. -/
def settling (hold : Bool) (a b : TargetState) : CardRecord :=
  { card1 with
    state := .settling, hold := hold, targets := [{ peer2 with state := a, cells := [] }, { local0 with state := b, cells := [] }] }

theorem test_settling : (settling false .verified .writing).state = .settling
    ∧ (∃ x ∈ (settling false .verified .writing).targets, x.state = .pending ∨ x.state = .writing)
    ∧ (∀ x ∈ (settling false .verified .verified).targets, x.state ≠ .pending ∧ x.state ≠ .writing)
    ∧ (settling false .verified .verified).k ≤ (settling false .verified .verified).verifiedCount
    ∧ (settling false .verified .verified).roundOutcomes = [(2, true)] ∧ (settling true .verified .verified).hold = true
    ∧ (settling false .dropped .verified).roundOutcomes = []
    ∧ (settling false .failed .verified).verifiedCount < (settling false .failed .verified).k
    ∧ ((settling false .failed .verified).targets.map Target.key).Nodup
    ∧ (settling false .failed .verified).excluded.length ≤ 6
    ∧ (∀ n ∈ [2], n ∉ (settling false .failed .verified).excluded)
    ∧ (settling false .failed .verified).log.records = [] ∧ run1.takesControl = true := by decide

/-- A report that verifies the last cell of the last target to end, with segment 1 verified before. -/
theorem test_last_report : ∃ (c : CardRecord) (x : Target), (withCard c run1).card .s0 = some c ∧ c.state = .settling
    ∧ readReport (request .segmentReport (reportBody ⟨tag1, 0, 1, .written, 256, 0xFFFF, 7⟩))
        = some ⟨tag1, 0, 1, .written, 256, 0xFFFF, 7⟩
    ∧ (run1.slot .s0).state ≠ .reading ∧ (c.targets.map Target.key).Nodup ∧ c.target (.peer 2) = some x
    ∧ x.state = .writing ∧ 0 < c.segmentCount ∧ x.cells[0]? = some ⟨.sent, 1, some 5000⟩
    ∧ x.verifiedSegments + 1 = c.segmentCount ∧ (∀ y ∈ c.targets, y.key ≠ .peer 2 → y.final = true)
    ∧ c.rows[0]? = some ⟨256, some 7⟩ ∧ c.k ≤ c.verifiedCount + 1 ∧ c.hold = false ∧ c.sourceErrors = 0 :=
  ⟨{ card1 with
      state := .settling
      targets := [{ peer2 with cells := [⟨.sent, 1, some 5000⟩, ⟨.verified, 1, none⟩] },
        { local0 with state := .verified, cells := [] }] },
    { peer2 with cells := [⟨.sent, 1, some 5000⟩, ⟨.verified, 1, none⟩] },
    rfl, rfl, by decide +kernel, by decide, by decide, rfl, rfl, by decide, rfl, by decide, by decide, rfl, by decide, rfl, rfl⟩

theorem test_report_timer : ∃ c x, busy1.card .s0 = some c ∧ c.target (.peer 2) = some x
    ∧ x.cells[0]? = some ⟨.sent, 1, some 5000⟩ ∧ x.cells[1]? = some ⟨.sent, 3, some 5000⟩ ∧ x.state = .writing
    ∧ c.resend.length < 64 ∧ busy1.takesControl = true ∧ (busy1.slot .s0).state = .reading
    ∧ ((withCard card1 run1).slot .s0).waiting = [] :=
  ⟨_, _, rfl, rfl, rfl, rfl, rfl, by decide, by decide, rfl, rfl⟩

/-! ## Hosted copies -/

/-- The rows of R72 at their edges: the same attempt, a later and an earlier one, a later and an equal segment, and a
later attempt of the segment last closed. -/
theorem test_placement : (∃ o, entry2.opened = some o ∧ o.segment = 0 ∧ o.attempt = 1)
    ∧ entry2.place 0 1 = .joins ∧ entry2.place 0 2 = .reopens ∧ entry2.place 1 1 = .opens
    ∧ ({ entry2 with opened := none } : HostedEntry).place 0 1 = .ignored
    ∧ ({ entry2 with opened := none, lastClosed := some ⟨0, 2, 256⟩ } : HostedEntry).place 0 2 = .ignored
    ∧ ({ entry2 with opened := none, lastClosed := some ⟨0, 2, 256⟩ } : HostedEntry).place 0 3 = .opens
    ∧ ({ entry2 with opened := some ⟨0, 2, [], false, false, 500⟩ } : HostedEntry).place 0 1 = .ignored := by decide

/-- The hosting state with one BLOCK in buffer 3. -/
def bulk2 (index attempt : Nat) (e : HostedEntry) : State :=
  { hosting e with trunk := { run1.trunk with bulk := [⟨3, tag2, index, attempt, false, false, 0, []⟩] } }

/-- A block that joins, one that joins beyond the reservation, and one that is ignored. -/
theorem test_handover :
    (∃ b, (bulk2 255 1 entry2).firstBulk .dc0 = some b ∧ (bulk2 255 1 entry2).hostedPlace b.tag = some 0
      ∧ (bulk2 255 1 entry2).hostedAt 0 = some entry2 ∧ entry2.place (b.index / 256) b.attempt = .joins
      ∧ (bulk2 255 1 entry2).mayEnter (.bulk b.buffer) = true ∧ b.lastOfSegment = false ∧ b.index < entry2.blockCount)
    ∧ (let e := { entry2 with opened := some ⟨1, 1, [], false, false, 500⟩ }
      ∃ b, (bulk2 300 1 e).firstBulk .dc0 = some b ∧ e.place (b.index / 256) b.attempt = .joins
        ∧ (bulk2 300 1 e).mayEnter (.bulk b.buffer) = true ∧ e.blockCount ≤ b.index)
    ∧ let e := { entry2 with opened := none }
      ∃ b, (bulk2 255 1 e).firstBulk .dc0 = some b ∧ e.place (b.index / 256) b.attempt = .ignored
        ∧ (bulk2 255 1 e).mayEnter (.bulk b.buffer) = true :=
  ⟨⟨_, rfl, by decide, rfl, by decide, by decide, rfl, by decide⟩, ⟨_, rfl, by decide, by decide, by decide⟩,
    ⟨_, rfl, by decide, by decide⟩⟩

/-- A BLOCK taken with room takes the one place before a later one of its port that waits in the line, and before a
slot behind that one (R11). -/
theorem test_arrival_order : ∃ s : State, s.line = [.bulk 1, .slot .s0] ∧ s.room = ⟨1, 0, 3⟩
    ∧ s.mayEnter (.bulk 0) = true ∧ s.mayEnter (.slot .s0) = false ∧ s.need (.slot .s0) = ⟨1, 0, 1⟩
    ∧ (s.firstBulk .dc0).map BulkBlock.buffer = some 0 ∧ s.need (.bulk 1) = ⟨1, 0, 0⟩ :=
  ⟨{ hosting entry2 with
      line := [.bulk 1, .slot .s0]
      slots := (inHand true).slots
      cards := busy1.cards
      ports := ⟨{ port1 with queue := List.replicate 15 write1, runs := [⟨9, .hosted tag2, 300, [], false⟩] }, .start⟩
      trunk := { run1.trunk with
        bulk := [⟨0, tag2, 1, 1, false, false, 0, []⟩, ⟨1, tag2, 255, 1, true, false, 0, []⟩] } },
    by decide +kernel⟩

/-- The last-of-segment flag on every BLOCK that waits. -/
def flagged (s : State) : State :=
  { s with trunk := { s.trunk with bulk := s.trunk.bulk.map fun b => { b with lastOfSegment := true } } }

/-- The entry with another open segment. -/
def opened2 (segment : Nat) (present : List Nat) (beyond : Bool) : HostedEntry :=
  { entry2 with opened := some ⟨segment, 1, present, false, beyond, 500⟩ }

/-- No room; a block that opens a segment with none open, over a full one and over a short one, and one that reopens. -/
theorem test_opens :
    (withPort { port1 with queue := List.replicate 16 (.write 9 0 1 0 []), runs := [⟨9, .hosted tag2, 300, [], false⟩] }
        (bulk2 255 1 entry2)).mayEnter (.bulk 3) = false
    ∧ ({ entry2 with opened := none }).place (256 / 256) 1 = .opens
    ∧ (bulk2 256 1 { entry2 with opened := none }).mayEnter (.bulk 3) = true
    ∧ (opened2 0 (List.range 256) false).place (256 / 256) 1 = .opens
    ∧ (List.range 256).length = segmentSize 300 2 0
    ∧ (bulk2 256 1 (opened2 0 (List.range 256) false)).mayEnter (.bulk 3) = true
    ∧ entry2.place (256 / 256) 1 = .opens ∧ [0].length ≠ segmentSize 300 2 0 ∧ entry2.owed = []
    ∧ (bulk2 256 1 entry2).mayEnter (.bulk 3) = true ∧ (bulk2 256 1 entry2).takesControl = true
    ∧ entry2.place (0 / 256) 2 = .reopens ∧ (bulk2 0 2 entry2).mayEnter (.bulk 3) = true
    ∧ (bulk2 256 1 entry2).firstBulk .dc0 = some ⟨3, tag2, 256, 1, false, false, 0, []⟩
    ∧ (bulk2 256 1 entry2).hostedPlace tag2 = some 0 ∧ 256 < entry2.blockCount := by decide +kernel

/-- A flagged block that makes the open segment full, one that leaves it short, one that opens and fills a segment of
one block, and one beyond the block count. -/
theorem test_last_of_segment :
    (flagged (bulk2 299 1 (opened2 1 (List.range' 256 43) false))).firstBulk .dc0
        = some ⟨3, tag2, 299, 1, true, false, 0, []⟩
    ∧ (opened2 1 (List.range' 256 43) false).place (299 / 256) 1 = .joins
    ∧ (insertSorted 299 (List.range' 256 43)).length = segmentSize 300 2 1
    ∧ (insertSorted 299 []).length ≠ segmentSize 300 2 1 ∧ ({ entry2 with opened := none }).place (299 / 256) 1 = .opens
    ∧ ({ entry2 with blockCount := 257, opened := none }).place (256 / 256) 1 = .opens
    ∧ (insertSorted 256 []).length = segmentSize 257 2 1
    ∧ (flagged (bulk2 299 1 (opened2 1 (List.range' 256 43) false))).mayEnter (.bulk 3) = true
    ∧ (flagged (bulk2 300 1 (opened2 1 [] false))).mayEnter (.bulk 3) = true
    ∧ (opened2 1 [] false).place (300 / 256) 1 = .joins ∧ entry2.blockCount ≤ 300
    ∧ (flagged (bulk2 300 1 (opened2 1 [] false))).takesControl = true := by decide

/-- A segment short by one block, a full last segment, and a full one with a block beyond. -/
theorem test_idle_segment :
    (∃ e o, (hosting entry2).hostedAt 0 = some e ∧ e.state = .receiving ∧ e.opened = some o
      ∧ o.present.length ≠ segmentSize e.blockCount e.segmentCount o.segment ∧ e.owed = []
      ∧ (hosting entry2).takesControl = true)
    ∧ (∃ s : State, ∃ e o, s.hostedAt 0 = some e ∧ e.state = .receiving ∧ e.opened = some o ∧ o.beyond = false
        ∧ o.present.length = segmentSize e.blockCount e.segmentCount o.segment)
    ∧ ∃ s : State, ∃ e o, s.hostedAt 0 = some e ∧ e.state = .receiving ∧ e.opened = some o ∧ o.beyond = true :=
  ⟨⟨_, _, rfl, rfl, rfl, by decide, rfl, by decide⟩,
    ⟨hosting { entry2 with opened := some ⟨1, 1, List.range' 256 44, false, false, 500⟩ }, _, _, rfl, rfl, rfl, rfl,
      by decide⟩,
    ⟨hosting { entry2 with opened := some ⟨1, 1, [300], false, true, 500⟩ }, _, _, rfl, rfl, rfl, rfl⟩⟩

/-- An idle short segment behind one that still awaits its read-back. -/
theorem test_idle_behind : ∃ e o w, (hosting { opened2 1 [256] false with owed := [⟨0, 1, 256, none⟩] }).hostedAt 0 = some e
    ∧ e.state = .receiving ∧ e.opened = some o ∧ o.present.length ≠ segmentSize e.blockCount e.segmentCount o.segment
    ∧ e.owed = w :: [] ∧ w.formed = none :=
  ⟨_, _, _, rfl, rfl, rfl, by decide, rfl, rfl⟩

theorem test_reservation : ∃ e r, (hosting { entry2 with state := .reserved }).hostedAt 0 = some e ∧ e.state = .reserved
    ∧ ((hosting { entry2 with state := .reserved }).port e.port).runs.find? (fun x => x.id == e.run) = some r
    ∧ ((hosting { entry2 with state := .reserved }).port e.port).acceptedBlocks e.run = [] :=
  ⟨_, _, rfl, rfl, rfl, rfl⟩

/-! ## Drive ports -/

/-- A READY port with an item in service, an ABSENT one and a FAILED one; a LOCAL target and entries on both ports. -/
theorem test_ports :
    (run1.port .dc0).state = .absent ∧ (busy1.port .dc0).state = .ready
    ∧ (∃ s : State, (s.port .dc0).state = .ready ∧ (s.port .dc0).serving.isSome = true)
    ∧ (∃ s : State, (s.port .dc0).state = .failed)
    ∧ (∃ c x, busy1.card .s0 = some c ∧ c.target (.localPort .dc0) = some x ∧ x.active = true)
    ∧ ∃ e, (hosting entry2).hostedAt 0 = some e ∧ e.port = .dc0 :=
  ⟨rfl, rfl, ⟨withPort { port1 with serving := some write1 } busy1, rfl, rfl⟩,
    ⟨withPort { port1 with state := .failed } busy1, rfl⟩, ⟨_, _, rfl, rfl, by decide⟩, ⟨_, rfl, rfl⟩⟩

/-- An ABANDONED record with a LOCAL target on the port that is lost. -/
theorem test_abandoned_loss : ∃ s : State, ∃ c, s.card .s0 = some c ∧ c.state = .abandoned ∧ c.resend = []
    ∧ (s.slot .s0).state ≠ .reading ∧ (c.targets.map Target.key).Nodup ∧ (s.port .dc0).state = .ready
    ∧ ((after (.driveDetach .dc0) s).card .s0).map (fun x => x.targets.map Target.state) = some [.writing, .failed] :=
  ⟨{ withCard { card1 with state := .abandoned } busy1 with slots := run1.slots }, _, rfl, rfl, rfl, by decide, by decide,
    rfl, by decide +kernel⟩

/-- A lost port's entry with a segment that awaits its read-back and an open one, with none of either after a closed
one, and with none at all. -/
theorem test_write_failed : ∃ s : State, (s.port .dc0).state = .ready
    ∧ (∃ e, s.hostedAt 0 = some e ∧ e.port = .dc0 ∧ e.state = .receiving ∧ e.owed = [⟨0, 1, 256, none⟩] ∧ e.opened.isSome = true)
    ∧ (∃ e, s.hostedAt 1 = some e ∧ e.port = .dc0 ∧ e.state = .receiving ∧ e.owed = [] ∧ e.opened = none
        ∧ e.lastClosed = some ⟨0, 1, 256⟩)
    ∧ (∃ e, s.hostedAt 2 = some e ∧ e.port = .dc0 ∧ e.state = .receiving ∧ e.owed = [] ∧ e.opened = none
        ∧ e.lastClosed = none)
    ∧ s.mode ≠ .silent ∧ s.mode ≠ .localOnly
    ∧ s.trunk.sendQ.length + 8 + (s.hosted.map fun o => (o.map fun h => h.owed.length + 1).getD 0).sum ≤ 48 :=
  ⟨{ hosting entry2 with
      hosted := [some { entry2 with owed := [⟨0, 1, 256, none⟩] },
        some { entry2 with tag := ⟨2, 6⟩, opened := none, lastClosed := some ⟨0, 1, 256⟩ },
        some { entry2 with tag := ⟨2, 7⟩, opened := none }, none, none, none, none, none] },
    rfl, ⟨_, rfl, rfl, rfl, rfl, rfl⟩, ⟨_, rfl, rfl, rfl, rfl, rfl, rfl⟩, ⟨_, rfl, rfl, rfl, rfl, rfl, rfl⟩, by decide,
    by decide, by decide⟩

/-- The first write of a block, with one block left in the reservation, and a later write of it. -/
theorem test_write : ∃ s : State, (s.port .dc0).serving = some write1 ∧ (s.port .dc0).finishing = false
    ∧ (∃ r, (s.port .dc0).runs.find? (fun x => x.id == 0) = some r ∧ r.ended = false ∧ 0 < r.reservation
        ∧ r.written.contains 298 = false ∧ r.written.contains 297 = true)
    ∧ (∀ e, some e ∈ s.hosted → e.run ≠ 0) ∧ 0 < (s.port .dc0).fig.reserved :=
  ⟨withPort { port1 with
      serving := some write1, fig := ⟨1000, 10, 1⟩, runs := [⟨0, .card .s0 tag1, 1, [297], false⟩] } busy1,
    rfl, rfl, ⟨_, rfl, rfl, by decide, by decide, by decide⟩, by
      intro e h
      have : (some e) ∈ List.replicate 8 (none : Option HostedEntry) := h
      simp at this, by decide⟩

/-- A port that finishes a warm restart while the new mount's request waits for its answer. -/
theorem test_answered : ∃ (s : State) (c : CardRecord), (s.port .dc0).serving = some write1
    ∧ (s.port .dc0).finishing = true ∧ (s.port .dc0).requests = [.card .s0] ∧ s.card .s0 = some c ∧ c.state = .indexing
    ∧ c.forming = [.dc0] ∧ (∀ x ∈ c.targets, x.state = .pending) ∧ c.targets.map Target.key = [.localPort .dc1]
    ∧ ((after (.blockWriteDone .dc0) s).card .s0).map (fun c => (c.forming, c.state, c.targets.map Target.key))
      = some ([], .copying, [.localPort .dc0, .localPort .dc1]) :=
  ⟨{ withPort { port1 with serving := some write1, finishing := true, requests := [.card .s0] } busy1 with
      slots := run1.slots.set .s0 { SlotReader.start with state := .ready, size := 300 }
      cards := run1.cards.set .s0 (some { freshRecord tag1 2 with
        blockCount := 300, segmentCount := 2, forming := [.dc0],
        targets := [{ local0 with key := .localPort .dc1, state := .pending }] }) },
    _, rfl, rfl, rfl, rfl, rfl, rfl, by decide, rfl, by decide +kernel⟩

/-- A port that writes a block of the hosted run, or of the run that has ended, or finishes a warm restart. -/
def writing9 (ended finishing : Bool) : Channel :=
  { port1 with
    serving := some (.write 9 298 1 0 []), finishing := finishing, runs := [⟨9, .hosted tag2, 300, [], ended⟩] }

/-- The write of an entry in RECEIVING, the last one of a COMPLETE entry, one of a run that has ended, and that of a
finishing channel. -/
theorem test_hosted_write :
    (∀ e, some e ∈ (withPort (writing9 false false) (hosting entry2)).hosted → e.run = 9 →
      e.state ≠ .complete ∧ e.state ≠ .cancelled)
    ∧ (withPort (writing9 false false) (hosting { entry2 with state := .complete })).hosted.findIdx?
        (fun o => o.any fun h => h.run == 9) = some 0
    ∧ (∀ x ∈ (writing9 false false).queue ++ (writing9 false false).readbacks, x.run ≠ some 9)
    ∧ (∃ r, (writing9 true false).runs.find? (fun x => x.id == 9) = some r ∧ r.ended = true ∧ 0 < r.reservation)
    ∧ (∀ e, some e ∈ (withPort (writing9 true false) run1).hosted → e.run ≠ 9)
    ∧ 0 < (writing9 true false).fig.reserved
    ∧ (writing9 true true).finishing = true ∧ (writing9 true true).requests = [] :=
  ⟨by
      intro e h _
      have : some e = some entry2 ∨ some e = none := by simpa [withPort, hosting, List.mem_replicate] using h
      rcases this with h | h <;> cases h
      decide, by decide, by decide, ⟨_, rfl, rfl, by decide⟩, by
      intro e h
      have : some e ∈ List.replicate 8 (none : Option HostedEntry) := h
      simp at this, by decide, rfl, rfl⟩

/-- A proxy frame of tag1's clip 0. -/
def proxy1 : ProxyFrame := ⟨tag1, 0, none, 0, 0, true, false, 1, []⟩

/-- A queue whose oldest item is a proxy frame, and one of proxy frames alone. -/
theorem test_serve :
    (∃ c : Channel, c.serving = none ∧ c.finishing = false ∧ c.queue = [.proxy proxy1] ++ write1 :: []
      ∧ write1.isProxy = false ∧ ∀ y ∈ [WorkItem.proxy proxy1], y.isProxy = true)
    ∧ (∃ c : Channel, c.serving = none ∧ c.queue = .proxy proxy1 :: [] ∧ ∀ y ∈ c.queue, y.isProxy = true) :=
  ⟨⟨{ port1 with queue := [.proxy proxy1, write1] }, rfl, rfl, rfl, rfl, by decide⟩,
    ⟨{ port1 with queue := [.proxy proxy1] }, rfl, rfl, by decide⟩⟩

theorem test_settle : ∃ s : State, (s.port .dc0).serving = some (.settle 0 0 2) ∧ (s.port .dc0).cls = some .flash
    ∧ (s.port .dc0).readbacks = [] ∧ (s.port .dc0).finishing = false ∧ (s.port .dc0).queue = write1 :: []
    ∧ write1.isProxy = false :=
  ⟨withPort { port1 with serving := some (.settle 0 0 2), queue := [write1] } busy1, rfl, rfl, rfl, rfl, rfl, rfl⟩

/-- One block read back with the CRC that was kept for it. -/
theorem test_agree (w : Word) : crcMismatches [(0, w)] [w] = [] := by simp [crcMismatches]

/-- A read-back of a one-block segment of run 0. -/
def readback1 (w : Word) : Channel :=
  { port1 with serving := some (.readback 0 0 1 false), jobs := [⟨0, 0, 1, 1, [(0, w)]⟩] }

theorem test_readback : ∃ (s : State) (job : SegmentJob) (r : Run) (c : CardRecord) (x : Target),
    (s.port .dc0).serving = some (.readback 0 0 1 false) ∧ (s.port .dc0).job 0 0 1 = some job
    ∧ (s.port .dc0).runs.find? (fun y => y.id == 0) = some r ∧ r.owner = .card .s0 c.tag
    ∧ [([] : List Byte)].length = job.expected ∧ s.card .s0 = some c ∧ c.state ≠ .abandoned
    ∧ c.target (.localPort .dc0) = some x ∧ x.cells[0]? = some ⟨.sent, 1, none⟩
    ∧ crcMismatches job.kept ([([] : List Byte)].map blockCrc) = []
    ∧ c.sourceFold 0 = some (segmentFold ([([] : List Byte)].map blockCrc)) :=
  ⟨withCard { card1 with rows := [⟨1, some (segmentFold [blockCrc []])⟩, ⟨44, none⟩] }
      (withPort (readback1 (blockCrc [])) busy1),
    ⟨0, 0, 1, 1, [(0, blockCrc [])]⟩, ⟨0, .card .s0 tag1, 300, [], false⟩,
    { card1 with rows := [⟨1, some (segmentFold [blockCrc []])⟩, ⟨44, none⟩] }, local0,
    rfl, rfl, rfl, rfl, rfl, rfl, by decide, rfl, rfl, test_agree _, rfl⟩

/-- A read-back CRC that is not the one kept. -/
theorem test_differ (w : Word) : crcMismatches [(0, w + 1)] [w] = [(0, w + 1, w)] ∧ w + 1 ≠ w := by
  constructor <;> simp [crcMismatches]

/-- The attempt of the read-back of a one-block segment, with the CRC kept and the source fold given. -/
def failing (a : Nat) (kept fold : Word) : State :=
  withCard { card1 with rows := [⟨1, some fold⟩, ⟨44, none⟩], targets := [{ local0 with cells := [⟨.sent, a, none⟩] }] }
    (withPort { port1 with serving := some (.readback 0 0 a false), jobs := [⟨0, 0, a, 1, [(0, kept)]⟩] } busy1)

/-- A CRC that differs, a fold that differs where the CRCs agree, and the third attempt. -/
theorem test_failed_readback (w : Word) :
    (∃ c x, (failing 1 (w + 1) 0).card .s0 = some c ∧ c.state ≠ .abandoned ∧ c.target (.localPort .dc0) = some x
      ∧ x.state = .writing ∧ x.cells[0]? = some ⟨.sent, 1, none⟩ ∧ c.resend.length < 64 ∧ c.log.records = []
      ∧ ((failing 1 (w + 1) 0).port .dc0).queue = [] ∧ ((failing 1 (w + 1) 0).port .dc0).readbacks = [])
    ∧ (∃ job, ((failing 1 (w + 1) 0).port .dc0).job 0 0 1 = some job ∧ crcMismatches job.kept [w] = [(0, w + 1, w)])
    ∧ (∃ job c, ((failing 2 w (segmentFold [w] + 1)).port .dc0).job 0 0 2 = some job
        ∧ crcMismatches job.kept [w] = [] ∧ (failing 2 w (segmentFold [w] + 1)).card .s0 = some c
        ∧ c.sourceFold 0 ≠ some (segmentFold [w]))
    ∧ ∃ c x, (failing 3 (w + 1) 0).card .s0 = some c ∧ c.target (.localPort .dc0) = some x
        ∧ x.cells[0]? = some ⟨.sent, 3, none⟩ :=
  ⟨⟨_, _, rfl, by decide, rfl, rfl, rfl, by decide, rfl, rfl, rfl⟩, ⟨_, rfl, (test_differ w).1⟩,
    ⟨_, _, rfl, test_agree w, rfl, fun h => (test_differ (segmentFold [w])).2 (Option.some.inj h)⟩, ⟨_, _, rfl, rfl, rfl⟩⟩

/-- A read-back of a hosted segment whose report is the only one owed, and one with a report formed behind it. -/
theorem test_hosted_readback (owed : List OwedReport) : ∃ s : State, (s.port .dc0).serving = some (.readback 9 0 1 false)
    ∧ (∃ job, (s.port .dc0).job 9 0 1 = some job ∧ [([] : List Byte)].length = job.expected)
    ∧ (∃ r, (s.port .dc0).runs.find? (fun y => y.id == 9) = some r ∧ r.owner = .hosted tag2)
    ∧ s.hosted.findIdx? (fun h => h.any fun y => y.run == 9) = some 0
    ∧ (∃ e, s.hostedAt 0 = some e ∧ e.state = .receiving ∧ e.owed = owed) ∧ s.takesControl = true
    ∧ s.trunk.sendQ.length ≤ 46 :=
  ⟨withPort { port1 with
      serving := some (.readback 9 0 1 false), jobs := [⟨9, 0, 1, 1, [(0, 0)]⟩]
      runs := [⟨9, .hosted tag2, 300, [], false⟩] } (hosting { entry2 with owed := owed }),
    rfl, ⟨_, rfl, rfl⟩, ⟨_, rfl, rfl⟩, rfl, ⟨_, rfl, rfl, rfl⟩, rfl, Nat.zero_le _⟩

theorem test_compare : ∃ s : State, (s.port .dc0).serving = some (.readback 0 0 1 true)
    ∧ (∃ k job, (s.port .dc0).compare = some k ∧ (s.port .dc0).job 0 0 1 = some job ∧ k.position + 1 < job.expected)
    ∧ (∃ r, (s.port .dc0).runs.find? (fun y => y.id == 0) = some r ∧ r.owner = .card .s0 tag1)
    ∧ (s.slot .s0).running = some (.compare 0 .dc0 0 1)
    ∧ ∃ q h, (s.slot .s0).progress = some q ∧ q.hand = some h :=
  ⟨{ withPort { port1 with
        serving := some (.readback 0 0 1 true), compare := some ⟨0, 0, 0, none⟩, jobs := [⟨0, 0, 1, 256, []⟩] } busy1 with
      slots := busy1.slots.set .s0 { reader1 with
        queue := [.compare 0 .dc0 0 1], progress := some ⟨0, some ⟨0, [], 0, false⟩, 0, false⟩ } },
    rfl, ⟨_, _, rfl, rfl, by decide⟩, ⟨_, rfl, rfl⟩, rfl, ⟨_, _, rfl, rfl⟩⟩

/-- Nothing differs between a string and itself. -/
theorem byteCompareFrom_self (l : List Byte) : ∀ i, byteCompareFrom i l l = (0, none) := by
  induction l with
  | nil => intro i; rfl
  | cons a as ih => intro i; simp [byteCompareFrom, ih]

/-- Strings that differ in their first byte alone. -/
theorem byteCompareFrom_first (l : List Byte) : byteCompareFrom 0 (0 :: l) (1 :: l) = (1, some (0, 0, 1)) := by
  simp [byteCompareFrom, byteCompareFrom_self]

/-- A string of zeros written out from no byte, and from one. -/
theorem padTo_short (n : Nat) : padTo (n + 1) [] = 0 :: List.replicate n 0 ∧ padTo (n + 1) [1] = 1 :: List.replicate n 0 := by
  simp [padTo, List.replicate_succ, List.take_of_length_le]

/-- Blocks that agree, and blocks that differ in their first byte alone. -/
theorem test_byteCompare : byteCompare [] [] = (0, none) ∧ byteCompare [] [1] = (1, some (0, 0, 1)) := by
  refine ⟨byteCompareFrom_self _ _, ?_⟩
  unfold byteCompare blockBytes
  rw [(padTo_short 65535).1, (padTo_short 65535).2]
  exact byteCompareFrom_first _

/-- The last pair of a segment of one block, whose source fold is given. -/
def comparing (fold : Word) : State :=
  { withCard { card1 with
        rows := [⟨1, some fold⟩, ⟨44, none⟩], targets := [{ local0 with cells := [⟨.sent, 1, none⟩] }] }
      (withPort { port1 with
        serving := some (.readback 0 0 1 true), compare := some ⟨0, 0, 0, none⟩, jobs := [⟨0, 0, 1, 1, []⟩] } busy1) with
    slots := busy1.slots.set .s0 { reader1 with
      queue := [.compare 0 .dc0 0 1], progress := some ⟨0, some ⟨0, [], 0, false⟩, 0, false⟩ } }

/-- The last pair without a difference, and with one. -/
theorem test_last_pair (w : Word) :
    (∃ k job c x, ((comparing (foldIn 0 0 w)).port .dc0).compare = some k
      ∧ ((comparing (foldIn 0 0 w)).port .dc0).job 0 0 1 = some job ∧ k.position + 1 = job.expected
      ∧ (comparing (foldIn 0 0 w)).card .s0 = some c ∧ c.tag = tag1 ∧ c.state ≠ .abandoned
      ∧ c.target (.localPort .dc0) = some x ∧ x.state = .writing ∧ x.cells[0]? = some ⟨.sent, 1, none⟩
      ∧ k.diffs = 0 ∧ k.first = none ∧ c.sourceFold 0 = some (foldIn k.fold k.position w))
    ∧ (comparing 0).card .s0 = some { card1 with
        rows := [⟨1, some 0⟩, ⟨44, none⟩], targets := [{ local0 with cells := [⟨.sent, 1, none⟩] }] }
    ∧ ((comparing 0).port .dc0).capture = none ∧ 0 < 0 + (byteCompare [] [1]).1 ∧ card1.resend.length < 64 :=
  ⟨⟨_, _, _, _, rfl, rfl, rfl, rfl, rfl, nofun, rfl, rfl, rfl, rfl, rfl, rfl⟩, rfl, rfl,
    by rw [test_byteCompare.2]; decide, by decide⟩

/-- A proxy frame in service with exactly 12 blocks left, and with 11. -/
theorem test_proxy :
    (∃ s : State, (s.port .dc0).serving = some (.proxy proxy1)
      ∧ (s.port .dc0).fig.used + (s.port .dc0).fig.reserved + 12 = (s.port .dc0).fig.capacity)
    ∧ (∃ s : State, (s.port .dc0).serving = some (.proxy proxy1)
        ∧ (s.port .dc0).fig.capacity + 1 = (s.port .dc0).fig.used + (s.port .dc0).fig.reserved + 12
        ∧ s.holderOf proxy1.tag = some .s0 ∧ ∃ k, s.clip .s0 proxy1.clip = some k ∧ k.log.counts[10]? = some 0)
    ∧ ∃ s : State, (s.grade.outbox.get .s0) = ⟨proxy1 :: [], some .dc0⟩ ∧ s.mayEnter (.outbox .s0) = true
        ∧ proxy1.held = true ∧ ∃ h, s.grade.hold.get .s0 = some h ∧ h.tag = proxy1.tag ∧ h.clip = proxy1.clip :=
  ⟨⟨withPort { port1 with serving := some (.proxy proxy1), fig := ⟨322, 10, 300⟩ } busy1, rfl, rfl⟩,
    ⟨withPort { port1 with serving := some (.proxy proxy1), fig := ⟨321, 10, 300⟩ } busy1, rfl, rfl, by decide,
      _, rfl, rfl⟩,
    ⟨{ busy1 with grade := { busy1.grade with
        outbox := busy1.grade.outbox.set .s0 ⟨[proxy1], some .dc0⟩, hold := busy1.grade.hold.set .s0 (some ⟨tag1, 0, []⟩) } },
      rfl, by decide, rfl, _, rfl, rfl, rfl⟩⟩

/-- A state in which proxies are made, with an outbox of slot 0 and a queue of so many items at DC0. -/
def proxying (frames : List ProxyFrame) (queued : Nat) : State :=
  { withPort { port1 with queue := List.replicate queued write1 } busy1 with
    image := some { defaultImage with station := 1, proxyEnable := true }
    grade := { busy1.grade with
      outbox := busy1.grade.outbox.set .s0 ⟨frames, if frames = [] then none else some .dc0⟩ } }

/-- An offered frame that enters, one that goes first into the outbox, one that joins, one that takes a place, one too
many, one whose tag no record holds, and one with no port READY. -/
theorem test_offered :
    ((proxying [] 15).proxyPort = some .dc0 ∧ (proxying [] 15).fitsBehind (.atPort .dc0 1) (proxying [] 15).line = true)
    ∧ (proxying [] 16).fitsBehind (.atPort .dc0 1) (proxying [] 16).line = false
    ∧ (((proxying [proxy1] 16).grade.outbox.get .s0).frames = [] ++ [proxy1] ∧ proxy1.repeats < 65535)
    ∧ (proxy1.clip ≠ 1 ∧ [proxy1].length < 4)
    ∧ (((proxying (List.replicate 4 proxy1) 16).grade.outbox.get .s0).frames = List.replicate 3 proxy1 ++ [proxy1]
      ∧ (proxying [] 16).holderOf tag1 = some .s0 ∧ (proxying [] 16).holderOf tag2 = none
      ∧ ∃ k, (proxying [] 16).clip .s0 0 = some k ∧ k.log.counts[10]? = some 0)
    ∧ run1.proxyPort = none :=
  ⟨by decide, by decide, ⟨rfl, by decide⟩, by decide, ⟨rfl, by decide, by decide, _, rfl, rfl⟩, by decide⟩

/-! ## Frames, looks and grading -/

theorem test_cadence : ∃ s : State, ∃ k q, s.clip .s0 0 = some k ∧ k.cadence = some q
    ∧ (q.p + 1 - q.p).toInt = 1 ∧ 2 ≤ (q.p + 2 - q.p).toInt ∧ (q.p - q.p).toInt ≤ 0 :=
  ⟨withCard { card1 with clips := [{ clip1 with cadence := some ⟨500, 1000, 503⟩ }] } run1, _, _, rfl, rfl, by decide⟩

/-- A header that slips within the tolerance and beyond it, and the first header of a clip. -/
theorem test_slip : (∃ k, (withCard card1 run1).clip .s0 0 = some k ∧ k.cadence = none ∧ k.log.records = [])
    ∧ ∃ s : State, ∃ k q, s.clip .s0 0 = some k ∧ k.cadence = some q
        ∧ expectedTime q.t0 (504 - q.c0).toNat k.rateM k.rateN = 16015
        ∧ ¬ s.cfg.cadenceTolerance < ((16015 + BitVec.ofNat 32 s.cfg.cadenceTolerance - 16015 : Word).toInt).natAbs
        ∧ s.cfg.cadenceTolerance < ((16015 - BitVec.ofNat 32 (s.cfg.cadenceTolerance + 1) - 16015 : Word).toInt).natAbs :=
  ⟨⟨_, rfl, rfl, rfl⟩,
    withCard { card1 with clips := [{ clip1 with cadence := some ⟨500, 1000, 503⟩, rateM := 24000, rateN := 1001 }] } run1,
    _, _, rfl, rfl, by decide +kernel, by decide +kernel, by decide +kernel⟩

/-- The first 20 bytes of a frame header: 13 blocks, the plane at byte 100. -/
def header1 : List Byte := [0x3B, 0x91, 0x6C, 0xE4, 1, 0, 0, 0, 2, 0, 0, 0, 13, 0, 0, 0, 100, 0, 0, 0]

/-- A block of clip 0 in hand on the first pass, outside a unit. -/
def parsing (n : Nat) (d : List Byte) (q : List FrameEntry) : State :=
  queued q { proxying [proxy1] 0 with
    slots := busy1.slots.set .s0 { reader1 with progress := some ⟨n, some ⟨n, d, 0, false⟩, 0, false⟩ } }

/-- A good header with a free entry and with none, and a block that is no header. -/
theorem test_header :
    (∃ c, (parsing 1 header1 []).holding .s0 .firstPass ⟨1, some ⟨1, header1, 0, false⟩, 0, false⟩ ⟨1, header1, 0, false⟩ c
      ∧ (parsing 1 header1 []).mayEnter (.slot .s0) = true ∧ ((parsing 1 header1 []).slot .s0).parser.unit = none
      ∧ c.clipAt 1 = some 0 ∧ c.clips[0]? = some clip1)
    ∧ goodHeader clip1 300 ⟨1, header1, 0, false⟩ = true ∧ goodHeader clip1 300 ⟨1, [], 0, false⟩ = false
    ∧ goodHeader clip1 300 ⟨13, header1, 0, false⟩ = false
    ∧ 8 ≤ (parsing 1 header1 (List.replicate 8 (frame1 .complete))).grade.queue.length
    ∧ (parsing 1 header1 []).cfg.proxyEnable = true ∧ (parsing 1 header1 []).proxyPort ≠ none
    ∧ ((parsing 1 header1 []).grade.outbox.get .s0).frames = [] ++ [proxy1] ∧ proxy1.clip = 0 ∧ proxy1.tag = tag1 :=
  ⟨⟨_, ⟨rfl, rfl, rfl, rfl⟩, by decide, rfl, by decide, rfl⟩, by decide +kernel, by decide +kernel, by decide +kernel,
    by decide, rfl, by decide, rfl, rfl, rfl⟩

/-- A unit with its entry to fill, the block before its plane is whole and the one that completes it, and a clip that
ends at a block. -/
theorem test_unit : ∃ s : State, ∃ u : OpenUnit, (s.slot .s0).parser.unit = some u ∧ u.filling = true
    ∧ s.grade.queue = [] ++ frame1 .filling :: [] ∧ u.planeOffset + 777600 ≤ 65536 * 11 + 65536
    ∧ ¬ u.planeOffset + 777600 ≤ 65536 * 10 + 65536 ∧ 0 ∈ (s.slot .s0).parser.entered
    ∧ min (clip1.first + clip1.count) 300 = 24 + 1 ∧ clip1.clipEnd = false :=
  ⟨queued [frame1 .filling] { busy1 with
      slots := busy1.slots.set .s0 { reader1 with parser := ⟨some ⟨0, 1, 13, 100, true⟩, [0]⟩ } },
    _, rfl, rfl, rfl, by decide, by decide, by decide, by decide, rfl⟩

theorem test_version : ∃ (m : Message) (s : State), 1 ≤ byteAt m.body 0 ∧ byteAt m.body 0 ≤ 15
    ∧ byteAt m.body 0 < s.looks.length ∧ s.look (byteAt m.body 0) = none :=
  ⟨request .lookPublish [15], run1, by decide⟩

/-- A look in slot 3 at version 5. -/
def look3 : LookRecord := ⟨5, neutralName, .neutral⟩

/-- The state with look3 in slot 3 and a clip latched on it. -/
def looked : State :=
  { withCard { card1 with clips := [{ clip1 with latched := some ⟨3, 5, neutralName⟩ }] } run1 with
    looks := startLooks.set 3 (some look3) }

/-- Publications of version 6 and 5 for slot 3, of slot 0 and of slot 16, here and broadcast. -/
theorem test_publish :
    ((receiving (request .lookPublish [3, 6]) looked).heads .lookPublish (request .lookPublish [3, 6]) []
      ∧ ∃ old, looked.look 3 = some old ∧ newerVersion (readLook [3, 6]).version old.version = true
        ∧ newerVersion (readLook [3, 5]).version old.version = false)
    ∧ 15 < byteAt [16] 0 ∧ byteAt [0] 0 = 0 ∧ (request .lookPublish [16]).target ≠ 0 ∧ looked.takesControl = true
    ∧ (∃ m : Message, m.target = 0 ∧ byteAt m.body 0 = 0) :=
  ⟨⟨⟨rfl, rfl⟩, _, rfl, by decide, by decide⟩, by decide, by decide, by decide, by decide,
    ⟨{ request .lookPublish [0] with target := 0 }, rfl, rfl⟩⟩

/-- A broadcast assignment to slot 16, one for a tag that no record holds, and one of a clip that is not there. -/
theorem test_assign_broadcast : ∃ m : Message, m.target = 0 ∧ (receiving m looked).heads .lookAssign m []
    ∧ 15 < byteAt (tag1Bytes ++ [0, 0, 0, 0, 16]) 8 ∧ looked.holderOf (tagAt tag2Bytes) = none
    ∧ looked.holderOf (tagAt m.body) = some .s0 ∧ ∃ c, looked.card .s0 = some c ∧ c.clips.length ≤ halfAt m.body 4 :=
  ⟨{ request .lookAssign (tag1Bytes ++ [1, 0, 1, 0, 3, 0, 0, 0]) with target := 0 }, rfl, ⟨rfl, rfl⟩, by decide, by decide,
    by decide, _, rfl, by decide⟩

/-- An assignment of clip 0 to slot 15, one to slot 16, and one for a tag that no record holds. -/
theorem test_assign : ∃ m : Message, (receiving m looked).heads .lookAssign m [] ∧ byteAt m.body 8 ≤ 15
    ∧ looked.holderOf (tagAt m.body) = some .s0 ∧ (∃ c, looked.card .s0 = some c ∧ halfAt m.body 4 < c.clips.length)
    ∧ halfAt m.body 4 ≤ halfAt m.body 6 ∧ m.target ≠ 0 ∧ looked.takesControl = true
    ∧ 15 < byteAt (tag1Bytes ++ [0, 0, 0, 0, 16]) 8 ∧ looked.holderOf (tagAt tag2Bytes) = none :=
  ⟨request .lookAssign (tag1Bytes ++ [0, 0, 0, 0, 15, 0, 0, 0]), ⟨rfl, rfl⟩, by decide, by decide, ⟨_, rfl, by decide⟩,
    by decide, by decide, by decide, by decide, by decide⟩

theorem test_take :
    (∃ s : State, s.grade.queue = [{ frame1 .filling with slot := .s1 }] ++ frame1 .complete :: []
      ∧ (frame1 .complete).state = .complete ∧ (∀ x ∈ [{ frame1 .filling with slot := .s1 }], x.state = .filling)
      ∧ s.holderOf tag1 = some .s0 ∧ ∃ k, s.clip .s0 0 = some k ∧ k.latched = none ∧ k.assigned = 3
        ∧ s.look k.assigned = none)
    ∧ (∃ k r, (queued [frame1 .complete] (withCard card1 looked)).clip .s0 0 = some k ∧ k.latched = none
        ∧ looked.look k.assigned = some r)
    ∧ ∃ k l r, (queued [frame1 .complete] looked).clip .s0 0 = some k ∧ k.latched = some l
        ∧ (looked.working.get .s0).owner ≠ some (tag1, 0)
        ∧ ({ looked with looks := startLooks.set 3 (some { look3 with version := 6 }) } : State).look l.slot = some r
        ∧ r.version ≠ l.version :=
  ⟨⟨queued [{ frame1 .filling with slot := .s1 }, frame1 .complete] (withCard card1 run1), rfl, rfl, by decide,
      by decide, _, rfl, rfl, rfl, rfl⟩,
    ⟨_, _, rfl, rfl, rfl⟩, ⟨_, _, _, rfl, rfl, by decide, rfl, by decide⟩⟩

theorem test_complete : ∃ s : State, s.grade.queue = [] ++ frame1 (.grading .neutral) :: []
    ∧ (frame1 (.grading .neutral)).slot = s.grade.monitored ∧ s.holderOf tag1 = some .s0
    ∧ ∃ k, s.clip .s0 0 = some k ∧ k.pendingPos = [4] :=
  ⟨queued [frame1 (.grading .neutral)] (withCard { card1 with clips := [{ clip1 with pendingPos := [4] }] } run1),
    rfl, rfl, by decide, _, rfl, rfl⟩

/-- A clip whose end is handed, with a count and without, with room in the publication queue and none; and one with a
frame to come. -/
theorem test_completion : (∃ k, (withCard { card1 with clips := [{ clip1 with clipEnd := true }] } run1).clip .s0 0 = some k
      ∧ k.clipEnd = true ∧ k.complete = false ∧ k.pendingPos = [] ∧ ∀ c ∈ k.log.counts, c = 0)
    ∧ (∃ k, (withCard { card1 with clips := [{ clip1 with
          clipEnd := true, log := ⟨[], [0, 0, 0, 0, 0, 0, 0, 0, 0, 0, 1], false⟩ }] } run1).clip .s0 0 = some k
        ∧ k.clipEnd = true ∧ ∃ c ∈ k.log.counts, c ≠ 0)
    ∧ run1.mode = .run ∧ run1.pubQ.length < 64
    ∧ (∃ s : State, s.mode = .run ∧ 64 ≤ s.pubQ.length)
    ∧ ∃ s : State, ∃ k, s.clip .s0 0 = some k ∧ k.pendingPos ≠ [] ∧ k.clipEnd = false :=
  ⟨⟨_, rfl, rfl, rfl, rfl, by decide⟩, ⟨_, rfl, rfl, 1, by decide, by decide⟩, rfl, by decide,
    ⟨{ run1 with pubQ := List.replicate 64 ⟨.faultNotice, 0, []⟩ }, rfl, by decide⟩,
    ⟨withCard { card1 with clips := [{ clip1 with pendingPos := [4] }] } run1, _, rfl, by decide, rfl⟩⟩

theorem test_stages : (4095 ≤ 4095 ∧ (-2048 : Int) ≤ -2048 ∧ (2047 : Int) ≤ 2047)
    ∧ neutralTone.length = 33 ∧ (∀ x ∈ neutralTone, x ≤ 4095) ∧ stage2 neutralTone 4095 = 4094
    ∧ stage1 4095 2047 4095 = 18423 := by decide +kernel

/-! ## Messages of peer copies -/

/-- The body of an announce of tag2, round 1, one copy wanted, 300 blocks. -/
def announce2 : List Byte :=
  tag2Bytes ++ [1, 1, 0, 0] ++ List.replicate 8 0x20 ++ le32 300 ++ le32 2 ++ List.replicate 8 0

/-- An announce taken by a station that can host, and one that meets a COMPLETE and a RECEIVING entry. -/
theorem test_announce :
    (∃ m a, (receiving m busy1).heads .cardAnnounce m [] ∧ readAnnounce m = some a ∧ a.announce.tag = tag2
      ∧ busy1.hostedPlace a.announce.tag = none ∧ busy1.mode = .run ∧ a.announce.tag.station ≠ busy1.own
      ∧ a.excluded.contains busy1.own = false ∧ busy1.hosted.findIdx? Option.isNone = some 0
      ∧ busy1.claimPort a.announce.blockCount = some .dc0 ∧ (busy1.port .dc0).finishing = false
      ∧ busy1.trunk.sendQ.length < 48)
    ∧ (hosting entry2).hostedPlace tag2 = some 0 ∧ busy1.claimPort 691 = none := by
  refine ⟨⟨request .cardAnnounce announce2, ⟨⟨tag2, 1, 300, 2⟩, 1, []⟩, ⟨rfl, rfl⟩, by decide +kernel, rfl, ?_⟩,
    by decide, by decide⟩
  decide

/-- The first claim in an open window, and claims that find the round over, the source a target, or no window. -/
theorem test_claim : ∃ c : CardRecord, ∃ m : Message, (receiving m (withCard c run1)).heads .claim m []
    ∧ readClaim m = some (tag1, 1) ∧ run1.own = 1 ∧ (withCard c run1).holderOf tag1 = some .s0
    ∧ c.state = .claiming ∧ c.window = .opened 2 [] 300 ∧ c.round = 1 ∧ m.source ∉ c.excluded
    ∧ (∀ x ∈ c.targets, x.key ≠ .peer m.source) ∧ run1.cfg.claimWindow ≠ 0
    ∧ card1.state ≠ .claiming ∧ (∃ x ∈ card1.targets, x.key = .peer 2) :=
  ⟨{ card1 with state := .claiming, window := .opened 2 [] 300, targets := [local0] },
    request .claim (tag1Bytes ++ [1, 0, 0, 0, 0, 0, 0, 0]), ⟨rfl, rfl⟩, by decide, by decide, by decide, rfl, rfl, rfl,
    by decide, by decide, by decide, by decide, peer2, by decide, rfl⟩

/-- Replies that name this station and that do not, an entry of another round, and a tag with no entry. -/
theorem test_claim_reply : ∃ s : State, ∃ e, s.hostedPlace tag2 = some 0 ∧ s.hostedAt 0 = some e ∧ e.state = .reserved
    ∧ e.round = 1 ∧ s.heads .claimReply (request .claimReply (tag2Bytes ++ [1, 1, 0, 0, 1, 0, 0, 0])) []
    ∧ readClaimReply (request .claimReply (tag2Bytes ++ [1, 1, 0, 0, 1, 0, 0, 0])) = some (tag2, 1, [1]) ∧ s.own ∈ [1]
    ∧ readClaimReply (request .claimReply (tag2Bytes ++ [2, 1, 0, 0, 9, 0, 0, 0])) = some (tag2, 2, [9]) ∧ s.own ∉ [9]
    ∧ run1.hostedPlace tag2 = none :=
  ⟨receiving (request .claimReply (tag2Bytes ++ [1, 1, 0, 0, 1, 0, 0, 0])) (hosting { entry2 with state := .reserved }),
    _, by decide, rfl, rfl, rfl, ⟨rfl, rfl⟩, by decide, by decide, by decide, by decide, by decide⟩

/-- A RUN_CANCEL, and run ends that name this station VERIFIED and FAILED. -/
theorem test_end_of_run :
    readRunCancel (request .runCancel (tag2Bytes ++ [1, 0, 0, 0])) = some tag2
    ∧ readRunEnd (request .runEnd (tag2Bytes ++ [1, 0, 0, 0, 1, 1, 0, 0, 0, 0, 0, 0])) = some (tag2, [(1, true)])
    ∧ readRunEnd (request .runEnd (tag2Bytes ++ [1, 0, 0, 0, 1, 2, 0, 0, 0, 0, 0, 0])) = some (tag2, [(1, false)])
    ∧ run1.own = 1 ∧ (hosting entry2).hostedPlace tag2 = some 0 ∧ (hosting entry2).hostedAt 0 = some entry2
    ∧ entry2.state = .receiving ∧ ((hosting entry2).port entry2.port).acceptedBlocks entry2.run = []
    ∧ ∃ s : State, s.hostedAt 0 = some entry2 ∧ (s.port entry2.port).serving = some (.write entry2.run 0 1 0 []) :=
  ⟨by decide, by decide, by decide, by decide, by decide, by decide, by decide, by decide,
    ⟨withPort { port1 with serving := some (.write 9 0 1 0 []) } (hosting entry2), rfl, rfl⟩⟩

/-- A report of station 2 about tag1, segment 0, attempt 1. -/
def report2 (outcome : ReportOutcome) (present : Nat) : Message :=
  request .segmentReport (reportBody ⟨tag1, 0, 1, outcome, present, 0xFFFF, 7⟩)

/-- Each outcome against a cell in SENT, and a record that evaluates no report. -/
theorem test_report : (∃ r, readReport (report2 .written 256) = some r ∧ r.outcome = .written ∧ r.present = 256
      ∧ r.first = 0xFFFF ∧ r.fold = 7 ∧ r.segment = 0 ∧ r.attempt = 1)
    ∧ (∃ r, readReport (report2 .missingBlocks 255) = some r ∧ r.outcome = .missingBlocks ∧ r.attempt < 3)
    ∧ (∃ r, readReport (report2 .writeFailed 0) = some r ∧ r.outcome = .writeFailed)
    ∧ (∃ r, readReport (report2 .destFull 0) = some r ∧ r.outcome = .destFull)
    ∧ (∃ x, card1.target (.peer 2) = some x ∧ x.state = .writing ∧ x.cells[0]? = some ⟨.sent, 1, some 5000⟩)
    ∧ card1.rows[0]? = some ⟨256, some 7⟩ ∧ busy1.holderOf tag1 = some .s0 ∧ card1.resend.length < 64
    ∧ (withCard { card1 with state := .short } busy1).holderOf tag1 = some .s0 :=
  ⟨⟨⟨tag1, 0, 1, .written, 256, 0xFFFF, 7⟩, by decide +kernel⟩,
    ⟨⟨tag1, 0, 1, .missingBlocks, 255, 0xFFFF, 7⟩, by decide +kernel⟩,
    ⟨⟨tag1, 0, 1, .writeFailed, 0, 0xFFFF, 7⟩, by decide +kernel⟩,
    ⟨⟨tag1, 0, 1, .destFull, 0, 0xFFFF, 7⟩, by decide +kernel⟩, ⟨_, rfl, rfl, rfl⟩, rfl, by decide, by decide, by decide⟩

/-! ## Console requests -/

/-- Kinds without an owner, an unknown kind, and requests of a wrong length or with a byte above 1. -/
theorem test_unowned : (request .cardStatus []).code = 0x48 ∧ Kind.ofCode 0x7F = none
    ∧ (request .restart [0, 0, 0, 0]).body.length ≠ 4 * Kind.restart.requestWords
    ∧ 1 < byteAt (request .hold (tag1Bytes ++ [2, 0, 0, 0])).body 4 ∧ (request .hold []).target ≠ 0
    ∧ run1.takesControl = true := by decide

/-- Queries by tag and by slot, of slot 4, of an unknown tag, and of the clips 0 and 1. -/
theorem test_queries : (∃ m : Message, (receiving m busy1).heads .cardQuery m [] ∧ m.body.length = 8
      ∧ byteAt m.body 4 = 0 ∧ busy1.holderOf (tagAt m.body) = some .s0)
    ∧ slotOfNumber (byteAt (tag1Bytes ++ [1, 3, 0, 0]) 5) = some .s3 ∧ 3 < byteAt (tag1Bytes ++ [1, 4, 0, 0]) 5
    ∧ busy1.holderOf (tagAt tag2Bytes) = none
    ∧ (∃ c, busy1.card .s0 = some c ∧ (c.clips[0]?).isSome = true ∧ c.clips.length ≤ 1)
    ∧ (receiving (request .stationQuery [1, 0, 0, 0]) run1).heads .stationQuery (request .stationQuery [1, 0, 0, 0]) [] :=
  ⟨⟨request .cardQuery (tag1Bytes ++ [0, 0, 0, 0]), ⟨rfl, rfl⟩, by decide⟩, by decide, by decide, by decide,
    ⟨_, rfl, by decide, by decide⟩, ⟨rfl, rfl⟩⟩

/-- HOLD set and cleared, and FORCE_RELEASE, on records of each state that the tables name. -/
theorem test_hold : (∃ m : Message, (receiving m busy1).heads .hold m [] ∧ m.body.length = 8 ∧ byteAt m.body 4 = 1
      ∧ busy1.holderOf (tagAt m.body) = some .s0)
    ∧ (∃ c, (withCard { card1 with state := .releasable } run1).card .s0 = some c ∧ c.state = .releasable)
    ∧ (∃ c, (withCard { card1 with state := .held, hold := true } run1).card .s0 = some c ∧ c.state = .held
        ∧ c.sourceErrors = 0)
    ∧ (∃ c, (withCard { card1 with state := .abandoned } run1).card .s0 = some c ∧ c.state = .abandoned)
    ∧ (receiving (request .forceRelease tag1Bytes) busy1).heads .forceRelease (request .forceRelease tag1Bytes) []
    ∧ card1.state ≠ .held ∧ card1.state ≠ .short ∧ busy1.holderOf (tagAt tag2Bytes) = none :=
  ⟨⟨request .hold (tag1Bytes ++ [1, 0, 0, 0]), ⟨rfl, rfl⟩, by decide⟩, ⟨_, rfl, rfl⟩, ⟨_, rfl, rfl, rfl⟩, ⟨_, rfl, rfl⟩,
    ⟨rfl, rfl⟩, by decide, by decide, by decide⟩

/-- A slot named, one above 3, an ABANDONED record, and an ORPHANED entry beside another. -/
theorem test_slot_requests :
    (receiving (request .monitorSelect [3, 0, 0, 0]) run1).heads .monitorSelect (request .monitorSelect [3, 0, 0, 0]) []
    ∧ slotOfNumber (byteAt [3, 0, 0, 0] 0) = some .s3 ∧ 3 < byteAt [4, 0, 0, 0] 0
    ∧ (receiving (request .clearAbandoned [0, 0, 0, 0]) run1).heads .clearAbandoned (request .clearAbandoned [0, 0, 0, 0]) []
    ∧ (∃ c, (withCard { card1 with state := .abandoned } run1).card .s0 = some c ∧ c.state = .abandoned)
    ∧ (receiving (request .clearOrphans []) run1).heads .clearOrphans (request .clearOrphans []) []
    ∧ (∃ e r, (hosting { entry2 with state := .orphaned }).hostedAt 0 = some e ∧ e.state = .orphaned
        ∧ ((hosting { entry2 with state := .orphaned }).port e.port).runs.find? (fun x => x.id == e.run) = some r
        ∧ ((hosting { entry2 with state := .orphaned }).port e.port).acceptedBlocks e.run = []
        ∧ ∀ n e', n < 8 → n ≠ 0 → (hosting { entry2 with state := .orphaned }).hostedAt n = some e' →
            e'.state = .orphaned → e'.port ≠ e.port)
    ∧ entry2.state ≠ .orphaned :=
  ⟨⟨rfl, rfl⟩, by decide, by decide, ⟨rfl, rfl⟩, ⟨_, rfl, rfl⟩, ⟨rfl, rfl⟩,
    ⟨_, _, rfl, rfl, rfl, rfl, fun n e' small other h => by
      match n, other with
      | n + 1, _ =>
        have empty : (hosting { entry2 with state := .orphaned }).hostedAt (n + 1) = none := by
          match n, small with
          | 0, _ | 1, _ | 2, _ | 3, _ | 4, _ | 5, _ | 6, _ => rfl
        rw [empty] at h
        contradiction⟩, by decide⟩

/-- A restart with a write in service, with another item in service, and with a card seated. -/
theorem test_restart : (receiving (request .restart []) busy1).heads .restart (request .restart []) []
    ∧ (∃ s : State, (s.port .dc0).serving = some write1 ∧ write1.isWrite = true)
    ∧ (∃ s : State, ∀ x, (s.port .dc0).serving = some x → x.isWrite = false)
    ∧ ∃ s : State, s.seated.get .s0 = some 300 ∧ s.seated.get .s1 = none ∧ s.mode ≠ .localOnly :=
  ⟨⟨rfl, rfl⟩, ⟨withPort { port1 with serving := some write1 } busy1, rfl, rfl⟩, ⟨busy1, nofun⟩,
    ⟨{ busy1 with seated := ⟨some 300, none, none, none⟩ }, rfl, rfl, by decide⟩⟩

/-! ## Invariants -/

/-- A state that meets the premises of every invariant, with a BLOCK in a buffer. -/
theorem test_invariants : (hosting entry2).looksSound ∧ (hosting entry2).fits ∧ (hosting entry2).queuesBounded
    ∧ (bulk2 255 1 entry2).buffersBounded
    ∧ (bulk2 255 1 entry2).trunk.bulk.map BulkBlock.buffer ⊆ [0, 1, 2, 3]
    ∧ ((bulk2 255 1 entry2).trunk.bulk.map BulkBlock.buffer).Nodup ∧ presenceOrdered [⟨2, 0, none⟩, ⟨9, 0, none⟩]
    ∧ (hosting entry2).imageSound := by
  refine ⟨⟨by decide, by decide⟩, ⟨by unfold Channel.fits; decide, by unfold Channel.fits; decide⟩,
    ⟨by decide, by decide, by decide⟩, ⟨by decide, by decide⟩, by decide, by decide, by simp [presenceOrdered], ?_⟩
  intro m h
  cases h
  unfold imageInRange
  decide

/-- A slot in READING with its record in COPYING, two targets in WRITING, and nothing in the other slots. -/
theorem test_course : busy1.coursesSound := by
  intro i
  cases i
  case s0 =>
    have card : ∀ {c}, busy1.card .s0 = some c → c = card1 := fun h => (Option.some.inj h).symm
    refine ⟨nofun, fun _ => ⟨card1, rfl, nofun⟩, nofun, fun c h => ?_, fun _ => ⟨by decide, fun c h => ?_⟩,
      fun h => (h rfl).elim, fun c h => ?_, fun c h => ?_, fun c h => ?_, fun c h => ?_, fun c h => ?_, fun c h => ?_⟩ <;>
      cases card h
    · exact fun h => (h rfl).elim
    · exact .inl rfl
    · decide
    · exact fun _ => .inl rfl
    · decide
    · rintro (h | h) <;> cases h
    · exact nofun
    · exact ⟨by decide, by decide, by decide, nofun, nofun, nofun⟩
  all_goals exact courseSound_start

/-- A frame in the frame queue whose clip has its position pending. -/
def framed : State := queued [frame1 .complete] (withCard { card1 with clips := [{ clip1 with pendingPos := [4], seen := 1 }] } run1)

/-- The premises of the fault lists, the frame counts and the places, with a frame in the queue and a BLOCK in a
buffer. -/
theorem test_counts : framed.faultsSound ∧ framed.framesBalance ∧ framed.framesPending
    ∧ (bulk2 255 1 entry2).placesBounded := by
  refine ⟨⟨faultLog_empty_sound .station 5, ?_⟩, ?_, ?_, by decide, fun p => by cases p <;> decide, ?_⟩
  · intro i c h
    cases i <;> cases h
    refine ⟨faultLog_empty_sound .card 7, fun k h => ?_⟩
    cases List.mem_singleton.1 h
    exact faultLog_empty_sound .clip 11
  · intro i n k h
    cases i <;> cases n <;> cases h
    rfl
  · intro e h i k _ hk
    cases List.mem_singleton.1 h
    cases i <;> cases hk
    decide
  · intro i c h
    cases i <;> cases h

end Sys2Proof.Tests
end

section
/-! Which versions are newer, and the acceptance of a look into an EMPTY slot. -/

open Sys2Proof Sys2Proof.Machine

namespace Sys2Proof.Machine

/-! ## Versions (R119) -/

/-- The difference of two versions as R119 writes it. -/
theorem version_sub_toNat (w v : Half) : (w - v).toNat = (w.toNat + 65536 - v.toNat) % 65536 := by
  have hv : v.toNat < 65536 := v.isLt
  rw [BitVec.toNat_sub, show 2 ^ 16 - v.toNat + w.toNat = w.toNat + 65536 - v.toNat by omega]

/-- The rule of R119, read off the difference. -/
theorem newerVersion_iff (w v : Half) : newerVersion w v = true ↔
    1 ≤ (w.toNat + 65536 - v.toNat) % 65536 ∧ (w.toNat + 65536 - v.toNat) % 65536 ≤ 32767 := by
  simp only [newerVersion, Bool.and_eq_true, decide_eq_true_eq, version_sub_toNat]

/-- Equal versions are 0 apart. -/
@[simp] theorem newerVersion_self (v : Half) : newerVersion v v = false := by
  simp [newerVersion]

/-! ## Publications (R118) -/

/-- The slot of an accepted look holds it. -/
theorem look_acceptLook {s : State} {slot : Nat} (h : slot < s.looks.length) (r : LookRecord) :
    (acceptLook slot r s).look slot = some r := by
  simp [acceptLook, State.look, h]

/-- An EMPTY slot of 1 to 15 accepts a publication whatever its version (R119). -/
theorem takePublication_empty {m : Message} {s : State} (h1 : 1 ≤ byteAt m.body 0) (h15 : byteAt m.body 0 ≤ 15)
    (hnone : s.look (byteAt m.body 0) = none) :
    takePublication m s = acceptLook (byteAt m.body 0) (readLook m.body) s := by
  simp only [takePublication, hnone, if_neg (Nat.not_lt.2 h15), if_neg (Nat.ne_of_gt h1)]

end Sys2Proof.Machine

/-- Settles O38: the serial reading of the difference, the table of R119 by evaluation, and an EMPTY slot by what
acceptance leaves in it. -/
theorem newerVersionIsSerial : Obligations.NewerVersionIsSerial := by
  refine ⟨newerVersion_iff, newerVersion_self, by decide, by decide, by decide, by decide, by decide, ?_⟩
  intro m s h1 h15 hlen hnone
  rw [takePublication_empty h1 h15 hnone, look_acceptLook hlen]

end

section
/-! The Grade Pipeline: its start value, and the exact arithmetic of stages 1 and 2. -/

open Sys2Proof Sys2Proof.Machine

namespace Sys2Proof.Machine

/-! ## Start reset (R144) -/

/-- START_RESET gives the Grade Pipeline its start value, whatever it held. -/
theorem exec_startReset_grade (drives : Two (Option DriveReport)) (cards : Four (Option Nat)) (s : State) :
    ∃ t, exec (.startReset drives cards) s = .next t ∧ t.grade = .start := ⟨_, rfl, rfl⟩

/-- The shown frame at the start is black: every byte of its plane is 0. -/
theorem planeBytes_start_shown : planeBytes GradePipeline.start.shown = List.replicate 777600 0 := padTo_nil 777600

/-- Every proxy hold frame is empty at the start. -/
@[simp] theorem GradePipeline.start_hold (i : SlotId) : GradePipeline.start.hold.get i = none := Four.get_all none i

/-- Every outbox is empty at the start. -/
@[simp] theorem GradePipeline.start_outbox (i : SlotId) : GradePipeline.start.outbox.get i = ⟨[], none⟩ :=
  Four.get_all _ i

/-! ## Codes -/

/-- The clamp to a code, read as an integer. -/
theorem toCode_cast (a : Int) : (toCode a : Int) = max 0 (min 4095 a) := Int.toNat_of_nonneg (Int.le_max_left _ _)

/-- A channel is clamped when its value lies outside the codes. -/
theorem inCodes_eq_false_iff (a : Int) : inCodes a = false ↔ a < 0 ∨ 4095 < a := by
  simp only [inCodes, Bool.and_eq_false_iff, decide_eq_false_iff_not, Int.not_le]

/-! ## Stage 1 (R134) -/

/-- The product of two codes. -/
theorem mul_le_of_codes {slope v : Nat} (hslope : slope ≤ 4095) (hv : v ≤ 4095) : v * slope ≤ 16769025 :=
  Nat.mul_le_mul hv hslope

/-- The floor term of stage 1, before the offset. -/
theorem stage1_floor_le {slope v : Nat} (hslope : slope ≤ 4095) (hv : v ≤ 4095) :
    (v * slope + 512) / 1024 ≤ 16376 := by
  have hmul := mul_le_of_codes hslope hv
  omega

/-- Stage 1 before its clamp lies in −2,048 to 18,423. -/
theorem stage1_bounds {slope v : Nat} {offset : Int} (hslope : slope ≤ 4095) (hv : v ≤ 4095)
    (hlo : -2048 ≤ offset) (hhi : offset ≤ 2047) :
    -2048 ≤ stage1 slope offset v ∧ stage1 slope offset v ≤ 18423 := by
  have hfloor := stage1_floor_le hslope hv
  rw [stage1]
  omega

/-! ## Stage 2 (R135) -/

/-- In a rising interval the floor adds between 0 and the whole difference. -/
theorem interval_rise {d f : Int} (hd : 0 ≤ d) (h0 : 0 ≤ f) (h127 : f ≤ 127) :
    0 ≤ (d * f + 64) / 128 ∧ (d * f + 64) / 128 ≤ d := by
  have hlo : 0 ≤ d * f := Int.mul_nonneg hd h0
  have hhi : d * f ≤ d * 127 := Int.mul_le_mul_of_nonneg_left h127 hd
  omega

/-- In a falling interval the floor takes off between 0 and the whole difference: the 64 added before the division is
less than one step, so nothing rises above the upper entry. -/
theorem interval_fall {d f : Int} (hd : d ≤ 0) (h0 : 0 ≤ f) (h127 : f ≤ 127) :
    d ≤ (d * f + 64) / 128 ∧ (d * f + 64) / 128 ≤ 0 := by
  have hlo : d * 127 ≤ d * f := Int.mul_le_mul_of_nonpos_left hd h127
  have hhi : d * f ≤ 0 := Int.mul_nonpos_of_nonpos_of_nonneg hd h0
  omega

/-- The value at place f of the interval from entry t0 to entry t1, as R135 writes it. -/
def betweenEntries (t0 t1 f : Nat) : Int := (t0 : Int) + (((t1 : Int) - (t0 : Int)) * f + 64) / 128

/-- The value between two entries lies between them, whether the interval rises or falls. -/
theorem betweenEntries_bounds (t0 t1 : Nat) {f : Nat} (hf : f ≤ 127) :
    (min t0 t1 : Nat) ≤ betweenEntries t0 t1 f ∧ betweenEntries t0 t1 f ≤ (max t0 t1 : Nat) := by
  have h0 : (0 : Int) ≤ f := Int.natCast_nonneg f
  have h127 : (f : Int) ≤ 127 := Int.ofNat_le.2 hf
  rw [betweenEntries]
  rcases Nat.le_total t0 t1 with hrise | hfall
  · have hstep := interval_rise (Int.sub_nonneg_of_le (Int.ofNat_le.2 hrise)) h0 h127
    rw [Nat.min_eq_left hrise, Nat.max_eq_right hrise]
    omega
  · have hstep := interval_fall (Int.sub_nonpos_of_le (Int.ofNat_le.2 hfall)) h0 h127
    rw [Nat.min_eq_right hfall, Nat.max_eq_left hfall]
    omega

/-- The place of a code within its interval. -/
theorem interval_place_le (a : Nat) : a - 128 * (a / 128) ≤ 127 := by omega

/-- Stage 2 as an integer: the value between the two entries is never below 0, so nothing is lost in making it a
code. -/
theorem stage2_cast (tone : List Nat) (a : Nat) : (stage2 tone a : Int) =
    betweenEntries (tone.getD (a / 128) 0) (tone.getD (a / 128 + 1) 0) (a - 128 * (a / 128)) :=
  Int.toNat_of_nonneg (Int.le_trans (Int.natCast_nonneg _) (betweenEntries_bounds _ _ (interval_place_le a)).1)

/-- Stage 2 lies between the two entries of its interval, inclusive. -/
theorem stage2_between (tone : List Nat) (a : Nat) :
    min (tone.getD (a / 128) 0) (tone.getD (a / 128 + 1) 0) ≤ stage2 tone a
      ∧ stage2 tone a ≤ max (tone.getD (a / 128) 0) (tone.getD (a / 128 + 1) 0) := by
  have hbounds := betweenEntries_bounds (tone.getD (a / 128) 0) (tone.getD (a / 128 + 1) 0) (interval_place_le a)
  rw [← stage2_cast] at hbounds
  exact_mod_cast hbounds

/-- An entry of a tone table of codes is a code. -/
theorem tone_entry_le {tone : List Nat} {i : Nat} (hcodes : ∀ x ∈ tone, x ≤ 4095) (hi : i < tone.length) :
    tone.getD i 0 ≤ 4095 := by
  rw [List.getD_eq_getElem?_getD, List.getElem?_eq_getElem hi, Option.getD_some]
  exact hcodes _ (List.getElem_mem hi)

/-- Stage 2 clamps nothing: from a table of 33 codes a code becomes a code. -/
theorem stage2_le {tone : List Nat} {a : Nat} (hlen : tone.length = 33) (hcodes : ∀ x ∈ tone, x ≤ 4095)
    (ha : a ≤ 4095) : stage2 tone a ≤ 4095 :=
  Nat.le_trans (stage2_between tone a).2
    (Nat.max_le.2 ⟨tone_entry_le hcodes (by omega), tone_entry_le hcodes (by omega)⟩)

/-- The example of R135: at the first place of an interval that falls from 3,000 to 1,000 the floor takes off 16. -/
theorem stage2_falling_example {tone : List Nat} {a : Nat} (h0 : tone.getD (a / 128) 0 = 3000)
    (h1 : tone.getD (a / 128 + 1) 0 = 1000) (hf : a - 128 * (a / 128) = 1) : stage2 tone a = 2984 := by
  have hcast := stage2_cast tone a
  rw [h0, h1, hf, betweenEntries] at hcast
  omega

end Sys2Proof.Machine

/-- Settles O5: the Grade Pipeline has its start value, read off field by field. -/
theorem startResetEmptiesTheGradePipeline : Obligations.StartResetEmptiesTheGradePipeline := by
  intro drives cards s
  obtain ⟨t, hexec, hgrade⟩ := exec_startReset_grade drives cards s
  refine ⟨t, hexec, ?_⟩
  rw [hgrade]
  exact ⟨rfl, rfl, rfl, planeBytes_start_shown, fun i => ⟨GradePipeline.start_hold i,
    congrArg Outbox.frames (GradePipeline.start_outbox i)⟩⟩

/-- Settles O43: stage 1 by the bound on its product, stage 2 by the value between two entries in a rising and in a
falling interval. -/
theorem stagesOneAndTwoAreExact : Obligations.StagesOneAndTwoAreExact := by
  constructor
  · intro slope v offset hslope hv hlo hhi
    obtain ⟨hmin, hmax⟩ := stage1_bounds hslope hv hlo hhi
    exact ⟨rfl, mul_le_of_codes hslope hv, stage1_floor_le hslope hv, hmin, hmax, toCode_cast _,
      inCodes_eq_false_iff _, rfl, rfl⟩
  · intro tone a hlen hcodes ha
    obtain ⟨hmin, hmax⟩ := stage2_between tone a
    exact ⟨by omega, interval_place_le a, stage2_cast tone a, hmin, hmax, stage2_le hlen hcodes ha, by omega,
      stage2_falling_example⟩

end
